-- ==== Sys2Proof/Word.lean ====
section
/-! DEFINITION. The word types of the bus frame engine (BFE): the byte, the byte sequence and the 32-bit port word
(spec/00_scope.md R14, R15). All quantities of BFE are unsigned (R14: `sext_N` is used by no rule). -/

namespace Sys2Proof

/-- `Byte` of R14: a natural number 0..255, the same thing as an 8-bit unsigned vector; bit 0 is least significant. -/
abbrev Byte := BitVec 8

/-- `Bytes` of R15: a finite sequence of `Byte`, index 0 first. -/
abbrev Bytes := List Byte

/-- A 32-bit word at a port: the command request word CRW (R94) or the device-state word DSW (R95). -/
abbrev Word32 := BitVec 32

end Sys2Proof
end

