-- ==== Sys2Proof/Config.lean ====
section
/-! DEFINITION. The configuration record `CFG` of spec/00_scope.md R12: every parameter the spec leaves to the installation, with
the constraints R12 and R93 put on it, and the reference configuration `CFG_REF`. BFE reads `CFG` and never writes it (R30); it
is an input held in the state, so every claim about all states is a claim about all configurations. -/

namespace Sys2Proof

/-- The sync byte, `SYNC` of R12: constant 0xF7, not configurable. -/
def SYNC : Byte := 0xF7

/-- DeviceClass of R9: the closed tagged set, in the spec's order. -/
inductive DeviceClass where
  | light
  | thermostat
  | ventilation
  | gasValve
  | elevator
deriving DecidableEq, Repr

/-- A value of type `Class -> Byte` of R12, as plain data. -/
structure PerClass where
  light : Byte
  thermostat : Byte
  ventilation : Byte
  gasValve : Byte
  elevator : Byte
deriving DecidableEq, Repr

/-- `DEV_ID[c]`, `SUB_BASE[c]`: the entry of class `c`. -/
def PerClass.get (t : PerClass) : DeviceClass → Byte
  | .light => t.light
  | .thermostat => t.thermostat
  | .ventilation => t.ventilation
  | .gasValve => t.gasValve
  | .elevator => t.elevator

/-- `TEMP_ORDER` of R12, the source's open question on the two bytes of a temperature pair (R182). -/
inductive TempOrder where
  | firstCurrent
  | firstTarget
deriving DecidableEq, Repr

/-- `VENT_TABLE` of R12, the source's open question on the ventilation mode table (R185); spec/90_conflicts.md C2: these two. -/
inductive VentTable where
  | level3
  | level3Auto
deriving DecidableEq, Repr

/-- The configuration record `CFG` of R12, field by field. -/
structure Cfg where
  devId : PerClass
  cmdStatus : Byte
  cmdLightSet : Byte
  cmdThMode : Byte
  cmdThTemp : Byte
  cmdThAway : Byte
  cmdVentPower : Byte
  cmdVentSpeed : Byte
  cmdGasClose : Byte
  cmdElevCall : Byte
  subBase : PerClass
  tempOrder : TempOrder
  ventTable : VentTable
  ventLow : Byte
  ventMed : Byte
  ventHigh : Byte
  ventAuto : Byte
  bufBound : Nat
deriving DecidableEq, Repr

/-- The five device ids, in the order of R9. -/
def Cfg.deviceIds (c : Cfg) : List Byte :=
  [c.devId.light, c.devId.thermostat, c.devId.ventilation, c.devId.gasValve, c.devId.elevator]

/-- The eight command ids `CMD_*` other than `CMD_STATUS`, in the order of R12. -/
def Cfg.commandIds (c : Cfg) : List Byte :=
  [c.cmdLightSet, c.cmdThMode, c.cmdThTemp, c.cmdThAway, c.cmdVentPower, c.cmdVentSpeed, c.cmdGasClose, c.cmdElevCall]

/-- The constraints of R12 and R93: `DEV_ID` injective; `CMD_STATUS` differs from every `CMD_*`; the three `CMD_TH_*` distinct;
the two `CMD_VENT_*` distinct; the four ventilation codes distinct; `BUF_BOUND >= 262`. A `CFG` that violates them is outside
the spec (R93, R293). -/
def Cfg.wf (c : Cfg) : Bool :=
  decide c.deviceIds.Nodup &&
  decide (c.cmdStatus ∉ c.commandIds) &&
  decide [c.cmdThMode, c.cmdThTemp, c.cmdThAway].Nodup &&
  decide [c.cmdVentPower, c.cmdVentSpeed].Nodup &&
  decide [c.ventLow, c.ventMed, c.ventHigh, c.ventAuto].Nodup &&
  decide (262 ≤ c.bufBound)

/-- `CFG_REF` of R12: the reference configuration of the spec's test vectors. Its numbers are the spec's own, from general
knowledge (spec/93_implementation_defined.md G1 to G4). DESIGN CHOICE (unsafe, log 1): it is what the strap pins hold in
`State.reset` and what the table's bare numbers are read under; of the statements only WordsOfTheSpecDecode rests on it. -/
def cfgRef : Cfg where
  devId := { light := 0x0E, thermostat := 0x36, ventilation := 0x32, gasValve := 0x12, elevator := 0x33 }
  cmdStatus := 0x81
  cmdLightSet := 0x41
  cmdThMode := 0x43
  cmdThTemp := 0x44
  cmdThAway := 0x45
  cmdVentPower := 0x41
  cmdVentSpeed := 0x42
  cmdGasClose := 0x41
  cmdElevCall := 0x41
  subBase := { light := 0x10, thermostat := 0x10, ventilation := 0x00, gasValve := 0x00, elevator := 0x00 }
  tempOrder := .firstCurrent
  ventTable := .level3Auto
  ventLow := 0x01
  ventMed := 0x02
  ventHigh := 0x03
  ventAuto := 0x04
  bufBound := 4096

end Sys2Proof
end

