-- ==== Sys2Proof/Machine/Checksum.lean ====
section
/-! DEFINITION. The checksum functions of unit CHK (spec/40_checksum.md) and the frame format (spec/30_encoding.md section 1), as
pure functions of byte sequences. R120: CHK reads its operand and nothing else. -/

namespace Sys2Proof.Machine

/-- CHK.XOR (R121): the XOR of all bytes, 0x00 for the empty sequence. -/
def xorOf (s : Bytes) : Byte := s.foldl (· ^^^ ·) 0

/-- CHK.ADD (R122, R127): the sum taken in `Nat` and reduced modulo 256 once at the end. -/
def addOf (s : Bytes) : Byte := BitVec.ofNat 8 (s.map BitVec.toNat).sum

/-- CHK.VALIDATE, `valid(F)` (R123): both checksums hold; false for fewer than two bytes. It examines neither the sync byte nor
the length byte (R128). -/
def valid (f : Bytes) : Bool :=
  match f[f.length - 2]?, f[f.length - 1]? with
  | some x, some a =>
    decide (2 ≤ f.length) && decide (xorOf (f.take (f.length - 2)) = x) && decide (addOf (f.take (f.length - 1)) = a)
  | _, _ => false

/-- CHK.GEN, `gen(s)` (R124): append the XOR of `s`, then the sum over `s` and that XOR byte. -/
def gen (s : Bytes) : Bytes := s ++ [xorOf s, addOf (s ++ [xorOf s])]

/-- One pass of R129 over `s`: both 8-bit accumulators start at 0; `xacc ^ b` and `(aacc + b) mod 256` for each byte. -/
def accPass (s : Bytes) : Byte × Byte := s.foldl (fun p b => (p.1 ^^^ b, p.2 + b)) (0, 0)

/-- The incremental validation of R129: the accumulators over `F[0 ..< n-2]`, then the two comparisons with the xor byte added
to `aacc` between them. The answer is `(xacc, aacc, xorOK and addOK)`; for fewer than two bytes nothing is accumulated and the
answer is false (R123, D18). -/
def accValidate (f : Bytes) : Byte × Byte × Bool :=
  match f[f.length - 2]?, f[f.length - 1]? with
  | some x, some a =>
    if 2 ≤ f.length then
      let p := accPass (f.take (f.length - 2))
      (p.1, p.2 + x, decide (p.1 = x) && decide (p.2 + x = a))
    else (0, 0, false)
  | _, _ => (0, 0, false)

/-- The incremental generation of R129, "with the comparisons replaced by appends": `(xacc, aacc, the bytes)`. -/
def accGen (s : Bytes) : Byte × Byte × Bytes :=
  let p := accPass s
  (p.1, p.2 + p.1, s ++ [p.1, p.2 + p.1])

/-- The declared length's total, `L = d + 7` (R83): `d` zero-extended, the sum in `Nat`, without wrap. -/
def totalLength (d : Byte) : Nat := d.toNat + 7

/-- The Frame invariant of R82: `len(F) >= 7`, `F[0] = 0xF7`, `len(F) = F[4] + 7`, `valid(F)`. -/
def wellFormedFrame (f : Bytes) : Bool :=
  match f[0]?, f[4]? with
  | some sync, some d =>
    decide (7 ≤ f.length) && decide (sync = SYNC) && decide (f.length = totalLength d) && valid f
  | _, _ => false

/-- The bytes of R241 for a payload that a length byte can declare: the five-byte header `[0xF7, dev, sub, cmd, len(payload)]`
(spec/90_conflicts.md C1: with the length byte) and the payload, completed by CHK.GEN. -/
def frameOf (dev sub cmd : Byte) (payload : Bytes) : Bytes :=
  gen ([SYNC, dev, sub, cmd, BitVec.ofNat 8 payload.length] ++ payload)

end Sys2Proof.Machine
end

