-- ==== Sys2Proof/Syntax.lean ====
section
/-! DEFINITION. The thirty operations of spec/opcode_table.json and spec/30_encoding.md R96, one constructor each, with the
operands their rules give them; and the selecting words that take the place of an opcode (`OpWord`), one shape for each format
of the table (PORT, PORT8, MICRO, PHASE3, FUNCTION, FRAME_HDR40, CRW32). BFE executes no stored program (R1); what selects an
operation is said in R96. -/

namespace Sys2Proof

/-- The action tags of the command request word, bits 28:26 (R94): 0 OFF, 1 ON, 2 HVAC, 3 TEMP, 4 AWAY, 5 SPEED, 6 CALL;
7 reserved. -/
inductive Action where
  | off
  | on
  | hvac
  | temp
  | away
  | speed
  | call
  | reserved7
deriving DecidableEq, Repr

/-- The phase register's values (R25): `Q` quiescent, `S1` .. `S6` the steps of the extraction loop. -/
inductive Phase where
  | q
  | s1
  | s2
  | s3
  | s4
  | s5
  | s6
deriving DecidableEq, Repr

/-- The operations of BFE (R96), one constructor per row of spec/opcode_table.json. -/
inductive Instr where
  /-- BFE.RESET (R151). -/
  | bfeReset
  /-- FRS.FLUSH (R150). -/
  | frsFlush
  /-- FRS.FEED.B (R141); `b` is `rx_data`. -/
  | frsFeedB (b : Byte)
  /-- FRS.GUARD (R142). -/
  | frsGuard
  /-- FRS.S1 (R143). -/
  | frsS1
  /-- FRS.S2 (R144). -/
  | frsS2
  /-- FRS.S3 (R145). -/
  | frsS3
  /-- FRS.S4 (R146). -/
  | frsS4
  /-- FRS.S5 (R147). -/
  | frsS5
  /-- FRS.S6 (R148). -/
  | frsS6
  /-- CHK.XOR (R121). -/
  | chkXor (s : Bytes)
  /-- CHK.ADD (R122). -/
  | chkAdd (s : Bytes)
  /-- CHK.VALIDATE (R123). -/
  | chkValidate (f : Bytes)
  /-- CHK.GEN (R124). -/
  | chkGen (s : Bytes)
  /-- DEC.LIGHT (R181): sub id (not read, R190) and data region of the emitted frame. -/
  | decLight (sub : Byte) (data : Bytes)
  /-- DEC.THERMO (R182). -/
  | decThermo (sub : Byte) (data : Bytes)
  /-- DEC.VENT (R184). -/
  | decVent (sub : Byte) (data : Bytes)
  /-- DEC.GAS (R186). -/
  | decGas (sub : Byte) (data : Bytes)
  /-- DEC.ELEV (R187). -/
  | decElev (sub : Byte) (data : Bytes)
  /-- DEC.IGNORE (R188): every other `(dev, cmd)`. -/
  | decIgnore (dev sub cmd : Byte) (data : Bytes)
  /-- ENC.LIGHT.SET (R213): `on` is bit 26 (act ON or OFF); `rsv` bits 25:24 and `arg` are ignored. -/
  | encLightSet (on : Bool) (rsv : BitVec 2) (zone : Byte) (arg : BitVec 16)
  /-- ENC.TH.MODE (R214): `arg[0]` is 1 heat, 0 off. -/
  | encThMode (rsv : BitVec 2) (zone : Byte) (arg : BitVec 16)
  /-- ENC.TH.TEMP (R215): `arg` is the target temperature, unsigned fixed point with 8 fraction bits. -/
  | encThTemp (rsv : BitVec 2) (zone : Byte) (arg : BitVec 16)
  /-- ENC.TH.AWAY (R217): `arg[0]` is 1 on, 0 off. -/
  | encThAway (rsv : BitVec 2) (zone : Byte) (arg : BitVec 16)
  /-- ENC.VENT.POWER (R218). -/
  | encVentPower (on : Bool) (rsv : BitVec 2) (zone : Byte) (arg : BitVec 16)
  /-- ENC.VENT.SPEED (R219): `arg[7:0]` is the percentage. -/
  | encVentSpeed (rsv : BitVec 2) (zone : Byte) (arg : BitVec 16)
  /-- ENC.GAS.CLOSE (R221): whatever `act` is, the reserved code 7 included; `act` and `arg` are not examined. -/
  | encGasClose (act : Action) (rsv : BitVec 2) (zone : Byte) (arg : BitVec 16)
  /-- ENC.ELEV.CALL (R222). -/
  | encElevCall (rsv : BitVec 2) (zone : Byte) (arg : BitVec 16)
  /-- BLD.BUILD (R241). -/
  | bldBuild (dev sub cmd : Byte) (payload : Bytes)
  /-- TX.CMD (R223): the five fields of the command request word (R94); class tags 5..7 are no class. -/
  | txCmd (cls : BitVec 3) (act : Action) (rsv : BitVec 2) (zone : Byte) (arg : BitVec 16)
deriving DecidableEq, Repr

/-- The operations that have no port and no phase of their own: the functions called inside other operations (R96, kinds
"function" and "encode") and FRS.GUARD. DESIGN CHOICE (safe, log 3): a call of one, presented from outside, selects it. -/
inductive UnitCall where
  /-- FRS.GUARD, format MICRO. -/
  | guard
  /-- CHK.XOR, format FUNCTION. -/
  | chkXor (s : Bytes)
  /-- CHK.ADD, format FUNCTION. -/
  | chkAdd (s : Bytes)
  /-- CHK.VALIDATE, format FUNCTION. -/
  | chkValidate (f : Bytes)
  /-- CHK.GEN, format FUNCTION. -/
  | chkGen (s : Bytes)
  /-- BLD.BUILD, format FUNCTION. -/
  | build (dev sub cmd : Byte) (payload : Bytes)
  /-- An ENC.* row, format CRW32, selected by bits 31:26 of the command request word (R94, R210). -/
  | enc (w : Word32)
deriving DecidableEq, Repr

/-- What selects an operation, with its operand bits (R96 "selected by"; the formats of spec/opcode_table.json). -/
inductive OpWord where
  /-- format PORT: `rst = 1`. -/
  | rst
  /-- format PORT: `flush_req = 1`, taken at `ph = Q`. -/
  | flush
  /-- format PORT8: a transfer on the rx port; the byte is the whole word. -/
  | rx (b : Byte)
  /-- format PHASE3: the phase code (R97). -/
  | phase (code : BitVec 3)
  /-- format FRAME_HDR40: an emitted frame, header first (R81); data region and trailer follow the 40 header bits. -/
  | frame (f : Bytes)
  /-- format CRW32 at the cmd port: a transfer of `cmd_word`. -/
  | cmd (w : Word32)
  /-- formats MICRO, FUNCTION and CRW32 (ENC rows): a call of an internal function. -/
  | unit (u : UnitCall)
deriving DecidableEq, Repr

end Sys2Proof
end

