-- ==== Sys2Proof/WellFormed.lean ====
section
/-! DEFINITION. Which instructions an encoding exists for. Every operand of every row is legal at every value its bits can hold
(an operand outside a command's domain is refused by the operation, R212, not ill-formed); the checks that remain are the
decoders' (R180): a data region has as many bytes as a length byte declares, and DEC.IGNORE is the row of a `(dev, cmd)` that
selects none of the five decoders. -/

namespace Sys2Proof

/-- The five keys of the decode dispatch, `(DEV_ID[c], CMD_STATUS)` (R92, R93). -/
def statusKeys (c : Cfg) : List (Byte × Byte) := c.deviceIds.map fun dev => (dev, c.cmdStatus)

/-- `d` is one byte (R13): a data region has at most 255 bytes. -/
def dataLengthOk (data : Bytes) : Bool := decide (data.length ≤ 255)

/-- The instruction has an encoding under the configuration `c`. -/
def wellFormed (c : Cfg) : Instr → Bool
  | .bfeReset => true
  | .frsFlush => true
  | .frsFeedB _ => true
  | .frsGuard => true
  | .frsS1 => true
  | .frsS2 => true
  | .frsS3 => true
  | .frsS4 => true
  | .frsS5 => true
  | .frsS6 => true
  | .chkXor _ => true
  | .chkAdd _ => true
  | .chkValidate _ => true
  | .chkGen _ => true
  | .decLight _ data => dataLengthOk data
  | .decThermo _ data => dataLengthOk data
  | .decVent _ data => dataLengthOk data
  | .decGas _ data => dataLengthOk data
  | .decElev _ data => dataLengthOk data
  | .decIgnore dev _ cmd data => dataLengthOk data && decide ((dev, cmd) ∉ statusKeys c)
  | .encLightSet _ _ _ _ => true
  | .encThMode _ _ _ => true
  | .encThTemp _ _ _ => true
  | .encThAway _ _ _ => true
  | .encVentPower _ _ _ _ => true
  | .encVentSpeed _ _ _ => true
  | .encGasClose _ _ _ _ => true
  | .encElevCall _ _ _ => true
  | .bldBuild _ _ _ _ => true
  | .txCmd _ _ _ _ _ => true

end Sys2Proof
end

