-- ==== Sys2Proof/Decode.lean ====
section
/-! DEFINITION. The selection of an operation (spec/30_encoding.md R96): total on every selecting word, rejecting by name; and the
encoder, written from the same tables. The bits of each format are those of R94 (command request word), R97 (phase codes) and
R81 (frame). -/

namespace Sys2Proof

/-- Why a selecting word names no operation. -/
inductive DecodeError where
  /-- Phase code 000, `Q` (R97): the quiescent phase has no micro-step. -/
  | idlePhase
  /-- Phase code 111 (R97): unused, never occurs. -/
  | unusedPhase
  /-- Class tag 5, 6 or 7 (R94): no ENC row has it. -/
  | noClass
  /-- A `(cls, act)` pair with no entry in the dispatch table of R210. -/
  | noAction
  /-- A frame of fewer than 7 bytes (R82). -/
  | shortFrame
  /-- A frame that does not begin with the sync byte (R82). -/
  | badSync
  /-- A frame whose length is not its length byte plus 7 (R82). -/
  | lengthMismatch
deriving DecidableEq, Repr

/-! ## The command request word (R94) -/

/-- CRW bits 31:29, the class tag. -/
def crwCls (w : Word32) : BitVec 3 := w.extractLsb' 29 3
/-- CRW bits 28:26, the action tag. -/
def crwAct (w : Word32) : BitVec 3 := w.extractLsb' 26 3
/-- CRW bits 25:24, reserved, ignored. -/
def crwRsv (w : Word32) : BitVec 2 := w.extractLsb' 24 2
/-- CRW bits 23:16, the zone index. -/
def crwZone (w : Word32) : Byte := w.extractLsb' 16 8
/-- CRW bits 15:0, the argument. -/
def crwArg (w : Word32) : BitVec 16 := w.extractLsb' 0 16

/-- The command request word with the given fields, `cls` in the high bits (R94). -/
def mkCrw (cls act : BitVec 3) (rsv : BitVec 2) (zone : Byte) (arg : BitVec 16) : Word32 :=
  cls ++ act ++ rsv ++ zone ++ arg

/-- The class of a class tag (R94): 0 Light, 1 Thermostat, 2 Ventilation, 3 GasValve, 4 Elevator; 5, 6, 7 no class. -/
def classOfTag (t : BitVec 3) : Option DeviceClass :=
  match t.toNat with
  | 0 => some .light
  | 1 => some .thermostat
  | 2 => some .ventilation
  | 3 => some .gasValve
  | 4 => some .elevator
  | _ => none

/-- The class tag of a class (R94, R95). -/
def classTag : DeviceClass → BitVec 3
  | .light => 0
  | .thermostat => 1
  | .ventilation => 2
  | .gasValve => 3
  | .elevator => 4

/-- The action of an action tag (R94). -/
def actionOfTag (t : BitVec 3) : Action :=
  match t.toNat with
  | 0 => .off
  | 1 => .on
  | 2 => .hvac
  | 3 => .temp
  | 4 => .away
  | 5 => .speed
  | 6 => .call
  | _ => .reserved7

/-- The action tag of an action (R94). -/
def actionTag : Action → BitVec 3
  | .off => 0
  | .on => 1
  | .hvac => 2
  | .temp => 3
  | .away => 4
  | .speed => 5
  | .call => 6
  | .reserved7 => 7

/-- The dispatch table of R210 with its operands: the ENC row of `(cls, act)`, or none. -/
def encRowOf (cls : DeviceClass) (act : Action) (rsv : BitVec 2) (zone : Byte) (arg : BitVec 16) : Option Instr :=
  match cls, act with
  | .light, .off => some (.encLightSet false rsv zone arg)
  | .light, .on => some (.encLightSet true rsv zone arg)
  | .thermostat, .hvac => some (.encThMode rsv zone arg)
  | .thermostat, .temp => some (.encThTemp rsv zone arg)
  | .thermostat, .away => some (.encThAway rsv zone arg)
  | .ventilation, .off => some (.encVentPower false rsv zone arg)
  | .ventilation, .on => some (.encVentPower true rsv zone arg)
  | .ventilation, .speed => some (.encVentSpeed rsv zone arg)
  | .gasValve, a => some (.encGasClose a rsv zone arg)
  | .elevator, .call => some (.encElevCall rsv zone arg)
  | _, _ => none

/-- The ENC row a command request word selects. -/
def decodeEnc (w : Word32) : Except DecodeError Instr :=
  match classOfTag (crwCls w) with
  | none => .error .noClass
  | some cls =>
    match encRowOf cls (actionOfTag (crwAct w)) (crwRsv w) (crwZone w) (crwArg w) with
    | none => .error .noAction
    | some i => .ok i

/-- TX.CMD with the fields of its word (R223). -/
def decodeCmd (w : Word32) : Instr :=
  .txCmd (crwCls w) (actionOfTag (crwAct w)) (crwRsv w) (crwZone w) (crwArg w)

/-! ## The phase codes (R97) -/

/-- The phase code: Q = 000, S1 = 001, .., S6 = 110. -/
def phaseCode : Phase → BitVec 3
  | .q => 0
  | .s1 => 1
  | .s2 => 2
  | .s3 => 3
  | .s4 => 4
  | .s5 => 5
  | .s6 => 6

/-- The phase of a code; 111 is unused. -/
def phaseOfCode (c : BitVec 3) : Option Phase :=
  match c.toNat with
  | 0 => some .q
  | 1 => some .s1
  | 2 => some .s2
  | 3 => some .s3
  | 4 => some .s4
  | 5 => some .s5
  | 6 => some .s6
  | _ => none

/-- The micro-step a phase code selects (R96). -/
def decodePhase (c : BitVec 3) : Except DecodeError Instr :=
  match phaseOfCode c with
  | none => .error .unusedPhase
  | some .q => .error .idlePhase
  | some .s1 => .ok .frsS1
  | some .s2 => .ok .frsS2
  | some .s3 => .ok .frsS3
  | some .s4 => .ok .frsS4
  | some .s5 => .ok .frsS5
  | some .s6 => .ok .frsS6

/-! ## The emitted frame (R81, R180) -/

/-- The class whose decoder `(dev, cmd)` selects, or none for DEC.IGNORE (R180, tests in the order of the rule). -/
def decodeKey (c : Cfg) (dev cmd : Byte) : Option DeviceClass :=
  if cmd = c.cmdStatus then
    if dev = c.devId.light then some .light
    else if dev = c.devId.thermostat then some .thermostat
    else if dev = c.devId.ventilation then some .ventilation
    else if dev = c.devId.gasValve then some .gasValve
    else if dev = c.devId.elevator then some .elevator
    else none
  else none

/-- The header fields and the data region of an emitted frame (R81), or why it has not the shape of one (the first three parts
of R82; the checksums were FRS.S6's to test, and no decoder reads them, R190). -/
def frameFields (f : Bytes) : Except DecodeError (Byte × Byte × Byte × Bytes) :=
  match f with
  | sync :: dev :: sub :: cmd :: len :: rest =>
    if f.length < 7 then .error .shortFrame
    else if sync ≠ SYNC then .error .badSync
    else if f.length ≠ Machine.totalLength len then .error .lengthMismatch
    else .ok (dev, sub, cmd, rest.take len.toNat)
  | _ => .error .shortFrame

/-- The decoder row of the key, with its operands. -/
def decRowOf (key : Option DeviceClass) (dev sub cmd : Byte) (data : Bytes) : Instr :=
  match key with
  | some .light => .decLight sub data
  | some .thermostat => .decThermo sub data
  | some .ventilation => .decVent sub data
  | some .gasValve => .decGas sub data
  | some .elevator => .decElev sub data
  | none => .decIgnore dev sub cmd data

/-- The DEC row an emitted frame selects (R180). -/
def decodeFrame (c : Cfg) (f : Bytes) : Except DecodeError Instr :=
  match frameFields f with
  | .error e => .error e
  | .ok (dev, sub, cmd, data) => .ok (decRowOf (decodeKey c dev cmd) dev sub cmd data)

/-! ## Selection -/

/-- The internal function a call selects. -/
def decodeUnit : UnitCall → Except DecodeError Instr
  | .guard => .ok .frsGuard
  | .chkXor s => .ok (.chkXor s)
  | .chkAdd s => .ok (.chkAdd s)
  | .chkValidate f => .ok (.chkValidate f)
  | .chkGen s => .ok (.chkGen s)
  | .build dev sub cmd payload => .ok (.bldBuild dev sub cmd payload)
  | .enc w => decodeEnc w

/-- The operation a selecting word names (R96), total, rejecting by name. Only the frame keys depend on the configuration. -/
def decode (c : Cfg) : OpWord → Except DecodeError Instr
  | .rst => .ok .bfeReset
  | .flush => .ok .frsFlush
  | .rx b => .ok (.frsFeedB b)
  | .phase code => decodePhase code
  | .frame f => decodeFrame c f
  | .cmd w => .ok (decodeCmd w)
  | .unit u => decodeUnit u

/-! ## Encoding -/

/-- The ENC word of a class and action. -/
def encWord (cls : DeviceClass) (act : Action) (rsv : BitVec 2) (zone : Byte) (arg : BitVec 16) : OpWord :=
  .unit (.enc (mkCrw (classTag cls) (actionTag act) rsv zone arg))

/-- The status frame of a class (R89): `dev = DEV_ID[c]`, `cmd = CMD_STATUS`. -/
def statusFrame (c : Cfg) (cls : DeviceClass) (sub : Byte) (data : Bytes) : OpWord :=
  .frame (Machine.frameOf (c.devId.get cls) sub c.cmdStatus data)

/-- The action ON or OFF of the two rows that take either. -/
def onOff (on : Bool) : Action := if on then .on else .off

/-- The selecting word of an instruction, from the tables of spec/30_encoding.md. -/
def encode (c : Cfg) : Instr → OpWord
  | .bfeReset => .rst
  | .frsFlush => .flush
  | .frsFeedB b => .rx b
  | .frsGuard => .unit .guard
  | .frsS1 => .phase (phaseCode .s1)
  | .frsS2 => .phase (phaseCode .s2)
  | .frsS3 => .phase (phaseCode .s3)
  | .frsS4 => .phase (phaseCode .s4)
  | .frsS5 => .phase (phaseCode .s5)
  | .frsS6 => .phase (phaseCode .s6)
  | .chkXor s => .unit (.chkXor s)
  | .chkAdd s => .unit (.chkAdd s)
  | .chkValidate f => .unit (.chkValidate f)
  | .chkGen s => .unit (.chkGen s)
  | .decLight sub data => statusFrame c .light sub data
  | .decThermo sub data => statusFrame c .thermostat sub data
  | .decVent sub data => statusFrame c .ventilation sub data
  | .decGas sub data => statusFrame c .gasValve sub data
  | .decElev sub data => statusFrame c .elevator sub data
  | .decIgnore dev sub cmd data => .frame (Machine.frameOf dev sub cmd data)
  | .encLightSet on rsv zone arg => encWord .light (onOff on) rsv zone arg
  | .encThMode rsv zone arg => encWord .thermostat .hvac rsv zone arg
  | .encThTemp rsv zone arg => encWord .thermostat .temp rsv zone arg
  | .encThAway rsv zone arg => encWord .thermostat .away rsv zone arg
  | .encVentPower on rsv zone arg => encWord .ventilation (onOff on) rsv zone arg
  | .encVentSpeed rsv zone arg => encWord .ventilation .speed rsv zone arg
  | .encGasClose act rsv zone arg => encWord .gasValve act rsv zone arg
  | .encElevCall rsv zone arg => encWord .elevator .call rsv zone arg
  | .bldBuild dev sub cmd payload => .unit (.build dev sub cmd payload)
  | .txCmd cls act rsv zone arg => .cmd (mkCrw cls (actionTag act) rsv zone arg)

/-! ## The table's numbers -/

/-- The frame whose 40 header bits are `w`, bits 39:32 the sync byte and bits 7:0 the length byte as spec/opcode_table.json
numbers them, followed by as many zero bytes as the length byte declares and two zero trailer bytes. -/
def headerFrame (w : Nat) : Bytes :=
  let len : Byte := BitVec.ofNat 8 w
  [BitVec.ofNat 8 (w / 2 ^ 32), BitVec.ofNat 8 (w / 2 ^ 24), BitVec.ofNat 8 (w / 2 ^ 16), BitVec.ofNat 8 (w / 2 ^ 8), len]
    ++ List.replicate (len.toNat + 2) 0

/-- The selecting word of a row of spec/opcode_table.json whose bits are `w`. DESIGN CHOICE (safe, log 4), since the table's
formats are told apart by port and not by bits: 8 bits with a micro-step's code 1..6 are the phase code (PHASE3), other 8-bit
values are a byte at the rx port (PORT8); 32 bits with the class and action of an ENC row are that row's, every other 32-bit
value is a word at the cmd port; 40 bits are a frame header. -/
def opWordOf (nbits w : Nat) : Option OpWord :=
  match nbits with
  | 3 => some (.phase (BitVec.ofNat 3 w))
  | 8 =>
    if 1 ≤ w % 256 ∧ w % 256 ≤ 6 then some (.phase (BitVec.ofNat 3 (w % 256)))
    else some (.rx (BitVec.ofNat 8 w))
  | 32 =>
    match decodeEnc (BitVec.ofNat 32 w) with
    | .ok _ => some (.unit (.enc (BitVec.ofNat 32 w)))
    | .error _ => some (.cmd (BitVec.ofNat 32 w))
  | 40 => some (.frame (headerFrame w))
  | _ => none

/-- The instruction the decoder reads from a row of spec/opcode_table.json whose bits are `w`, under the reference
configuration, which the table's frame headers are written for. -/
def decodeTableWord (nbits w : Nat) : Option Instr :=
  match opWordOf nbits w with
  | none => none
  | some o =>
    match decode cfgRef o with
    | .ok i => some i
    | .error _ => none

end Sys2Proof
end

