-- ==== Sys2Proof/Machine/State.lean ====
section
/-! DEFINITION. The state of BFE as plain data: the resynchronising buffer, the phase register, the working latches, the strapped
configuration, what is pending at every output port, and the outside agents' side of the ports (spec/10_state.md;
spec/30_encoding.md R100; spec/20_memory.md). INVENTORY.md, heading State, gives every field with its rule and reset value. -/

namespace Sys2Proof.Machine

/-! ## Values (spec/00_scope.md section 3) -/

/-- The thermostat's hvac mode (R11). -/
inductive Hvac where
  | off
  | heat
deriving DecidableEq, Repr

/-- The Thermostat preset (R11). -/
inductive ThPreset where
  | none
  | away
deriving DecidableEq, Repr

/-- The Ventilation preset (R11). -/
inductive VentPreset where
  | none
  | low
  | medium
  | high
  | auto
deriving DecidableEq, Repr

/-- DeviceKey of R10: the class and the zone index, which is at least 1. -/
structure DeviceKey where
  cls : DeviceClass
  zone : Nat
deriving DecidableEq, Repr

/-- The structured value of a DeviceState (R11). Temperatures are TempH, half degrees in a byte (R16). -/
inductive DeviceValue where
  /-- Light: on; GasValve: closed; Elevator: call active. -/
  | flag (v : Bool)
  | thermo (hvac : Hvac) (preset : ThPreset) (cur tgt : Byte)
  | vent (isOn : Bool) (percentage : Nat) (preset : VentPreset)
deriving DecidableEq, Repr

/-- DeviceState of R11. -/
structure DeviceState where
  key : DeviceKey
  value : DeviceValue
deriving DecidableEq, Repr

/-- The refusal reasons of R101. They are results of the transmit side (R267), not faults of the machine. -/
inductive Reason where
  | badClass
  | badAction
  | badZone
  | subOverflow
  | badArg
  | badLength
deriving DecidableEq, Repr

/-- The four inputs of BLD.BUILD that ENC returns (R210). -/
structure BuildArgs where
  dev : Byte
  sub : Byte
  cmd : Byte
  payload : Bytes
deriving DecidableEq, Repr

/-- What a function-like operation returned. The model's own: BFE's functions hand their results to their caller. -/
inductive Ret where
  /-- Nothing has returned since reset. -/
  | none
  /-- CHK.XOR, CHK.ADD. -/
  | byte (b : Byte)
  /-- CHK.VALIDATE. -/
  | truth (v : Bool)
  /-- CHK.GEN, BLD.BUILD, TX.CMD. -/
  | bytes (bs : Bytes)
  /-- An ENC row. -/
  | args (a : BuildArgs)
  /-- `refuse(reason)` (R17, R212). -/
  | refused (r : Reason)
deriving DecidableEq, Repr

/-! ## Ports (R100) -/

/-- One transfer of the frame port: `frm_data`, `frm_sof`, `frm_eof`. -/
structure FrmBeat where
  data : Byte
  sof : Bool
  eof : Bool
deriving DecidableEq, Repr

/-- One transfer of the tx port: `tx_data`, `tx_eof`. -/
structure TxBeat where
  data : Byte
  eof : Bool
deriving DecidableEq, Repr

/-- The inputs that are levels: `rst`, the `cfg_*` pins presented while `rst = 1` (none: as they stand), and the three consumers'
ready inputs. -/
structure Levels where
  rst : Bool
  strap : Option Cfg
  frmReady : Bool
  stReady : Bool
  txReady : Bool
deriving DecidableEq, Repr

/-- A receive operation the host has issued: a byte to feed or a flush (R58: they take effect in the order they are issued). -/
inductive RxOp where
  | byte (b : Byte)
  | flush
deriving DecidableEq, Repr

/-- The outside agents' side of the ports, as data the step reads (R19: the host feeds bytes, signals connection close, asserts
reset, issues commands and consumes outputs). -/
structure HostSide where
  /-- The levels in this cycle. -/
  levels : Levels
  /-- The levels of the following cycles; the last stay. -/
  wave : List Levels
  /-- `flush_req`; once 1 it stays 1 until taken (log 25). -/
  flushPin : Bool
  /-- `flush_req` in the following cycles, in order. -/
  flushIn : List Bool
  /-- `rx_valid` with `rx_data`: the byte standing at the rx port, held until taken. -/
  rxPin : Option Byte
  /-- The bytes that follow, in order; none is a cycle without one. -/
  rxIn : List (Option Byte)
  /-- The receive operations already issued by FEED and CONNECT and not yet at the ports, oldest first (log 9). -/
  issued : List RxOp
  /-- The command standing at the cmd port, held until taken. -/
  cmdPin : Option Word32
  /-- The commands that follow, in order; none is a cycle without one. -/
  cmdIn : List (Option Word32)
  /-- A call of an internal function (the model's own, log 3). -/
  call : Option UnitCall
deriving DecidableEq, Repr

/-! ## The state -/

/-- The state of BFE. -/
structure State where
  /-- The configuration the `cfg_*` pins hold (R12, R30): an input, written by no operation. -/
  cfg : Cfg
  /-- The resynchronising buffer, oldest byte first (R20). -/
  buf : Bytes
  /-- The phase register (R25). -/
  ph : Phase
  /-- Latch `i`, 9 bits in a realisation: index of the first 0xF7, or none (R24, R143). -/
  i : Option Nat
  /-- Latch `d`, 8 bits: declared data length (R24). -/
  d : Byte
  /-- Latch `L`, 9 bits in a realisation: candidate total length (R24; a `Nat` by R17). -/
  L : Nat
  /-- Latch `dev`, 8 bits (R24). -/
  dev : Byte
  /-- Latch `sub`, 8 bits (R24). -/
  sub : Byte
  /-- Latch `cmd`, 8 bits (R24). -/
  cmd : Byte
  /-- Latch `xacc`, 8 bits: running XOR (R24, R129). -/
  xacc : Byte
  /-- Latch `aacc`, 8 bits: running sum modulo 256 (R24, R129). -/
  aacc : Byte
  /-- The emitted frame that DEC has not yet decoded (R153: frame port first, then DEC, then the loop goes on). -/
  decSlot : Option Bytes
  /-- Frame port: the beats offered and not yet taken (R100, R29). -/
  frmOut : List FrmBeat
  /-- State port: the DSW words offered and not yet taken (R95, R100). -/
  stOut : List Word32
  /-- Transmit port: the beats offered and not yet taken (R100, R245). -/
  txOut : List TxBeat
  /-- `cmd_refused` with `cmd_reason`, in the one cycle of the pulse (R100, R101). -/
  cmdRefused : Option Reason
  /-- What the frame consumer has taken (the consumer's, R28, R294). -/
  frmTaken : List FrmBeat
  /-- What the state consumer has taken. -/
  stTaken : List Word32
  /-- What the host has taken at the tx port. -/
  txTaken : List TxBeat
  /-- The frames FRS has emitted, in order, as values (R17 `emit`; the model's own record). -/
  emitted : List Bytes
  /-- The DeviceStates DEC has pushed, in order, as values (R17 `push`; the model's own record). -/
  pushed : List DeviceState
  /-- What the last function-like operation returned (the model's own record). -/
  ret : Ret
  /-- The outside agents. -/
  host : HostSide
deriving DecidableEq, Repr

/-- Why the machine stops with a fault. R260: no operation of BFE raises; every fault here marks a state the machine never
reaches, or a configuration for which the spec defines no behaviour. -/
inductive Fault where
  /-- Raised by FRS.S2, FRS.S4, FRS.S6 when they would read or remove bytes at or beyond `len(buf)` (R17: `MemRead` and `BufDrop`
  are defined only within the buffer; R32: those addresses do not exist). Safe: no state that meets the invariant raises it. -/
  | beyondBuffer
  /-- Raised by FRS.S2 when latch `i` holds none (R144 is entered only from FRS.S1 with an index). Safe, as above. -/
  | noSyncIndex
  /-- Raised by the step when `rst = 0` and the configuration violates the constraints of R12 and R93: "With an ill-formed `CFG`
  this spec defines no behaviour" (R293). Safe. -/
  | illFormedCfg
deriving DecidableEq, Repr

/-- Why the machine has no meaning to run. No operation and no step answers with one: every operation has its meaning. -/
inductive Refusal where
  /-- Raised by an arm of `exec` whose instruction has no meaning yet. Safe. -/
  | notModelled (mnemonic : String)
deriving DecidableEq, Repr

/-- The levels right after reset: `rst` released, every consumer ready. DESIGN CHOICE (unsafe, log 2): they are the outside
agents' inputs and the spec gives them no value. -/
def levelsReset : Levels := { rst := false, strap := none, frmReady := true, stReady := true, txReady := true }

/-- The outside agents with nothing to offer (R291: after reset BFE does nothing until the host starts an operation). -/
def hostQuiet : HostSide :=
  { levels := levelsReset, wave := [], flushPin := false, flushIn := [], rxPin := none, rxIn := [], issued := [],
    cmdPin := none, cmdIn := [], call := none }

/-- The machine right after reset under the configuration `c` (R31). -/
def State.resetWith (c : Cfg) : State where
  cfg := c
  buf := []
  ph := .q
  i := some 0
  d := 0
  L := 0
  dev := 0
  sub := 0
  cmd := 0
  xacc := 0
  aacc := 0
  decSlot := none
  frmOut := []
  stOut := []
  txOut := []
  cmdRefused := none
  frmTaken := []
  stTaken := []
  txTaken := []
  emitted := []
  pushed := []
  ret := .none
  host := hostQuiet

/-- The machine right after reset (R31, R290), the strap pins holding `CFG_REF` (DESIGN CHOICE, log 1). -/
def State.reset : State := State.resetWith cfgRef

/-- The three outcomes of an operation. -/
abbrev Outcome := Host.Outcome State Fault Refusal

end Sys2Proof.Machine
end

