-- ==== Sys2Proof/Machine/Ops.lean ====
section
/-! DEFINITION. The named operations over the buffer, the latches and the output ports (spec/00_scope.md R17,
spec/20_memory.md), and the outcome that takes the place of an exception: no operation of BFE raises (R260), so there is no
exception entry and no return from one; `refuse(reason)` (R212, R267) is the only outcome that tells the host "no". -/

namespace Sys2Proof.Machine

/-! ## The buffer as a memory (R32, R50, R51) -/

/-- `find(v, s)` of R15: the least index holding `v`, or none. -/
def find (v : Byte) (s : Bytes) : Option Nat := s.findIdx? fun b => b == v

/-- `MemRead(a, n)` of R17, R51: `buf[a ..< a+n]`, defined only when `a + n <= len(buf)`; no side effect. -/
def memRead (buf : Bytes) (a n : Nat) : Option Bytes :=
  if a + n ≤ buf.length then some ((buf.drop a).take n) else none

/-- `MemWrite(len(buf), n, v)` of R17: append at the tail, the only write there is. -/
def memAppend (buf v : Bytes) : Bytes := buf ++ v

/-- `BufDrop(n)` of R17: remove from the front, `n <= len(buf)` in every use. -/
def bufDrop (n : Nat) (buf : Bytes) : Option Bytes :=
  if n ≤ buf.length then some (buf.drop n) else none

/-- The buffer's address space as (address, byte) pairs: the offsets `0 .. len(buf)-1` counted from the oldest byte (R32). -/
def cellsOf (buf : Bytes) : List Host.Cell := buf.zipIdx.map fun p => (p.2, p.1)

/-- The one canonical form of a buffer's cells: the addresses are exactly 0, 1, .., n-1, strictly rising, with no hole. An address
that is not listed does not exist (R32), so no entry can equal what an unlisted address reads as. -/
def Memory.wf (m : List Host.Cell) : Bool := decide (m.map Prod.fst = List.range m.length)

/-- FRS.GUARD's discard (R142): the oldest excess over `BUF_BOUND`. -/
def guardBuf (bound : Nat) (buf : Bytes) : Bytes :=
  if bound < buf.length then buf.drop (buf.length - bound) else buf

/-! ## One operation after another -/

/-- `o`, and `f` from the state it leaves; a stop stays. -/
def andThen (o : Outcome) (f : State → Outcome) : Outcome :=
  match o with
  | .next t => f t
  | .fault r => .fault r
  | .refused r => .refused r

/-! ## Phase and latches -/

/-- `stop` of R17: end the current operation, `ph <- Q`. -/
def stop (s : State) : State := { s with ph := .q }

/-- `ph <- P` (R17). -/
def goto (p : Phase) (s : State) : State := { s with ph := p }

/-- The accumulators after one CHK evaluation (R24, R129). -/
def setAcc (x a : Byte) (s : State) : State := { s with xacc := x, aacc := a }

/-- The value a function-like operation returns to its caller. -/
def setRet (r : Ret) (s : State) : State := { s with ret := r }

/-- `refuse(reason)` (R17, R212): the operation ends with no output and the named reason; no state of BFE changes. -/
def refuse (r : Reason) (s : State) : State := setRet (.refused r) s

/-! ## The output ports (R100) -/

/-- The transfers of an emitted frame on the frame port (R100): the bytes in index order, `frm_sof` with `F[0]`, `frm_eof` with
`F[L-1]`. -/
def frameBeats (f : Bytes) : List FrmBeat :=
  f.mapIdx fun k b => { data := b, sof := decide (k = 0), eof := decide (k + 1 = f.length) }

/-- The transfers of a built frame on the tx port (R245): the bytes in index order, `tx_eof` with the last. -/
def txBeats (f : Bytes) : List TxBeat :=
  f.mapIdx fun k b => { data := b, eof := decide (k + 1 = f.length) }

/-- Offer beats on the frame port: with `frm_ready = 1` the consumer takes everything offered, in order; otherwise it waits there
until taken (R29, R100). -/
def offerFrm (bs : List FrmBeat) (s : State) : State :=
  if s.host.levels.frmReady then { s with frmTaken := s.frmTaken ++ (s.frmOut ++ bs), frmOut := [] }
  else { s with frmOut := s.frmOut ++ bs }

/-- Offer words on the state port. -/
def offerSt (ws : List Word32) (s : State) : State :=
  if s.host.levels.stReady then { s with stTaken := s.stTaken ++ (s.stOut ++ ws), stOut := [] }
  else { s with stOut := s.stOut ++ ws }

/-- Offer beats on the tx port. -/
def offerTx (bs : List TxBeat) (s : State) : State :=
  if s.host.levels.txReady then { s with txTaken := s.txTaken ++ (s.txOut ++ bs), txOut := [] }
  else { s with txOut := s.txOut ++ bs }

/-- `emit F` (R17, R153): record the frame, offer its bytes on the frame port and hand it to DEC. -/
def emitFrame (f : Bytes) (s : State) : State :=
  { offerFrm (frameBeats f) s with emitted := s.emitted ++ [f], decSlot := some f }

/-- The command was refused: the pulse on `cmd_refused` with the reason (R212, R223). -/
def pulseRefused (r : Reason) (s : State) : State := { refuse r s with cmdRefused := some r }

end Sys2Proof.Machine
end

