-- ==== Sys2Proof/Machine/Flags.lean ====
section
/-! DEFINITION. BFE has no flags, condition codes or status bits (spec/10_state.md R26): what other machines keep in a flag is here
a condition that the same operation consumes. The conditions of the transition table R155 and of R158, written once. -/

namespace Sys2Proof.Machine

/-- "Header not yet complete": fewer than 5 bytes (R145). -/
def headerShort (buf : Bytes) : Bool := decide (buf.length < 5)

/-- "Candidate not yet complete": fewer than `L` bytes (R147). -/
def candidateShort (buf : Bytes) (l : Nat) : Bool := decide (buf.length < l)

/-- `xorOK` of R123. -/
def xorOK (f : Bytes) : Bool := decide (f[f.length - 2]? = some (xorOf (f.take (f.length - 2))))

/-- `addOK` of R123. -/
def addOK (f : Bytes) : Bool := decide (f[f.length - 1]? = some (addOf (f.take (f.length - 1))))

/-- A quiescent buffer, by the three cases of R158: empty; a sync byte first and fewer than 5 bytes; a sync byte first, at least 5
bytes and fewer than `s[4] + 7`. -/
def quiescent (s : Bytes) : Bool :=
  match s with
  | [] => true
  | b :: _ =>
    decide (b = SYNC) &&
      (headerShort s ||
        match s[4]? with
        | some d => candidateShort s (totalLength d)
        | none => true)

end Sys2Proof.Machine
end

