-- ==== Sys2Proof/Machine/Operands.lean ====
section
/-! DEFINITION. Operand assembly and the value codings: sub-address (R86, R211), temperature bytes (R87, R183, R216), mask bits
(R88), the ventilation tables (R185, R220), the port codes (R94, R95, R101), and the payload functions of the five decoders and
the eight encoders (spec/42_decode.md, spec/43_encode.md). -/

namespace Sys2Proof.Machine

/-! ## Sub-address -/

/-- `sub = SUB_BASE[class] + zone`, in `Nat`; none when the sum exceeds 255 (R86, R211). -/
def subAddress (c : Cfg) (cls : DeviceClass) (zone : Byte) : Option Byte :=
  let sub := (c.subBase.get cls).toNat + zone.toNat
  if 255 < sub then none else some (BitVec.ofNat 8 sub)

/-! ## Temperatures -/

/-- `parseTempH(b) = 2 * (b & 0x7F) + b[7] = rotl8(b, 1)` (R183), a TempH. -/
def parseTempH (b : Byte) : Byte := b.rotateLeft 1

/-- `encodeTemp(arg)`: bit 7 is `arg[7]`, bits 6..0 are `arg[14:8]` (R216); used only when `arg[15] = 0`. -/
def encodeTemp (arg : BitVec 16) : Byte := arg.extractLsb' 7 1 ++ arg.extractLsb' 8 7

/-! ## Ventilation tables -/

/-- `ventDecode(m, e)` (R185): the sentinel first, only with `LEVEL3_AUTO`; an unknown mode code gives `(0, none)`. -/
def ventDecode (c : Cfg) (m : Byte) (e : Option Byte) : Nat × VentPreset :=
  if c.ventTable = .level3Auto ∧ e = some 0x04 then (50, .auto)
  else if m = c.ventLow then (33, .low)
  else if m = c.ventMed then (66, .medium)
  else if m = c.ventHigh then (100, .high)
  else (0, .none)

/-- `ventEncode(pct)` (R220). -/
def ventEncode (c : Cfg) (pct : Nat) : Byte :=
  if c.ventTable = .level3Auto ∧ pct = 50 then c.ventAuto
  else if pct ≤ 33 then c.ventLow
  else if pct ≤ 66 then c.ventMed
  else c.ventHigh

/-! ## Decoders' payload functions -/

/-- A boolean DeviceState of the class (R11). -/
def flagState (cls : DeviceClass) (zone : Nat) (v : Bool) : DeviceState := { key := { cls := cls, zone := zone }, value := .flag v }

/-- DEC.LIGHT (R181): for `k` in `1 .. d-1`, `(Light, k, data[k] = 0x01)`. -/
def lightStates (data : Bytes) : List DeviceState :=
  (data.drop 1).mapIdx fun k b => flagState .light (k + 1) (decide (b = 0x01))

/-- The number of zones DEC.THERMO looks at (R182): whole pairs from byte 5 on, at most 8. -/
def thermoZones (d : Nat) : Nat := min ((d - 5) / 2) 8

/-- One zone of DEC.THERMO (R182): `p`, `q` the bytes of its pair, `power`, `away` its mask bits. None for an unpopulated zone. -/
def thermoZone (order : TempOrder) (z : Nat) (power away : Bool) (p q : Byte) : Option DeviceState :=
  if p = 0x00 ∧ q = 0x00 then none
  else
    let hvac : Hvac := if power then .heat else .off
    let preset : ThPreset := if away then .away else .none
    let value : DeviceValue :=
      match order with
      | .firstCurrent => .thermo hvac preset (parseTempH p) (parseTempH q)
      | .firstTarget => .thermo hvac preset (parseTempH q) (parseTempH p)
    some { key := { cls := .thermostat, zone := z }, value := value }

/-- `data[k]`, or none when the data region is shorter (R189). -/
def dataByte (data : Bytes) (k : Nat) : Option Byte := data[k]?

/-- DEC.THERMO (R182): zone `z = k + 1` has the mask bits `data[1][k]`, `data[2][k]` (R88) and the pair `data[5 + 2k]`,
`data[6 + 2k]`. -/
def thermoStates (order : TempOrder) (data : Bytes) : List DeviceState :=
  if data.length < 3 then []
  else
    (List.range (thermoZones data.length)).filterMap fun k =>
      match dataByte data 1, dataByte data 2, dataByte data (5 + 2 * k), dataByte data (6 + 2 * k) with
      | some power, some away, some p, some q => thermoZone order (k + 1) (power.getLsbD k) (away.getLsbD k) p q
      | _, _, _, _ => none

/-- DEC.VENT (R184). -/
def ventStates (c : Cfg) (data : Bytes) : List DeviceState :=
  match dataByte data 1, dataByte data 2 with
  | some power, some m =>
    let r := ventDecode c m (dataByte data 3)
    [{ key := { cls := .ventilation, zone := 1 }, value := .vent (decide (power ≠ 0x00)) r.1 r.2 }]
  | _, _ => []

/-- DEC.GAS (R186): closed exactly when `data[1] = 0x04`. -/
def gasStates (data : Bytes) : List DeviceState :=
  match dataByte data 1 with
  | some b => [flagState .gasValve 1 (decide (b = 0x04))]
  | none => []

/-- DEC.ELEV (R187): call active exactly when `data[1] = 0x44`. -/
def elevStates (data : Bytes) : List DeviceState :=
  match dataByte data 1 with
  | some b => [flagState .elevator 1 (decide (b = 0x44))]
  | none => []

/-! ## The device-state word DSW (R95) -/

/-- `val[0]` of a Thermostat word: 1 heat, 0 off (R95). -/
def hvacBit : Hvac → BitVec 1
  | .off => 0
  | .heat => 1

/-- `val[1]`: 1 away, 0 none (R95). -/
def thPresetBit : ThPreset → BitVec 1
  | .none => 0
  | .away => 1

/-- `val[10:8]`: 0 none, 1 low, 2 medium, 3 high, 4 auto (R95). -/
def ventPresetCode : VentPreset → BitVec 3
  | .none => 0
  | .low => 1
  | .medium => 2
  | .high => 3
  | .auto => 4

/-- `val`, bits 17:0 of a DSW (R95), highest field first. -/
def dswVal : DeviceValue → BitVec 18
  | .flag v => (0 : BitVec 17) ++ BitVec.ofBool v
  | .thermo hvac preset cur tgt => tgt ++ cur ++ thPresetBit preset ++ hvacBit hvac
  | .vent isOn pct preset => (0 : BitVec 7) ++ ventPresetCode preset ++ BitVec.ofNat 7 pct ++ BitVec.ofBool isOn

/-- The device-state word (R95): `cls` 31:29, `zone` 28:21, zeros 20:18, `val` 17:0. -/
def dsw (st : DeviceState) : Word32 :=
  classTag st.key.cls ++ BitVec.ofNat 8 st.key.zone ++ (0 : BitVec 3) ++ dswVal st.value

/-! ## Encoders' payload functions -/

/-- The second payload byte of the on/off rows (R90). -/
def onByte (on : Bool) : Byte := if on then 0x01 else 0x00

/-- What an encoder returns: `(cmd, payload)` or `refuse(BAD_ARG)` (R210). -/
abbrev Row := Except Reason (Byte × Bytes)

/-- ENC.LIGHT.SET (R213). -/
def lightSetRow (c : Cfg) (on : Bool) : Row := .ok (c.cmdLightSet, [0x01, onByte on])

/-- ENC.TH.MODE (R214): `arg[0] = 1` is heat. -/
def thModeRow (c : Cfg) (arg : BitVec 16) : Row := .ok (c.cmdThMode, [0x01, onByte (arg.getLsbD 0)])

/-- ENC.TH.TEMP (R215): `arg[15] = 1` is refused. -/
def thTempRow (c : Cfg) (arg : BitVec 16) : Row :=
  if arg.getLsbD 15 then .error .badArg else .ok (c.cmdThTemp, [0x01, encodeTemp arg])

/-- ENC.TH.AWAY (R217). -/
def thAwayRow (c : Cfg) (arg : BitVec 16) : Row := .ok (c.cmdThAway, [0x01, onByte (arg.getLsbD 0)])

/-- ENC.VENT.POWER (R218). -/
def ventPowerRow (c : Cfg) (on : Bool) : Row := .ok (c.cmdVentPower, [0x01, onByte on])

/-- ENC.VENT.SPEED (R219): `arg[15:8]` nonzero or `arg[7:0] > 100` is refused. -/
def ventSpeedRow (c : Cfg) (arg : BitVec 16) : Row :=
  if arg.extractLsb' 8 8 ≠ 0 ∨ 100 < (arg.extractLsb' 0 8).toNat then .error .badArg
  else .ok (c.cmdVentSpeed, [0x01, ventEncode c (arg.extractLsb' 0 8).toNat])

/-- ENC.GAS.CLOSE (R221): one payload, whatever the operands. -/
def gasCloseRow (c : Cfg) : Row := .ok (c.cmdGasClose, [0x01, 0x00])

/-- ENC.ELEV.CALL (R222). -/
def elevCallRow (c : Cfg) : Row := .ok (c.cmdElevCall, [0x01, 0x10])

/-- ENC from the row on (R210): the zone and sub-address tests, then the encoder. -/
def encTail (c : Cfg) (cls : DeviceClass) (zone : Byte) (row : Row) : Except Reason BuildArgs :=
  if zone = 0 then .error .badZone
  else
    match subAddress c cls zone with
    | none => .error .subOverflow
    | some sub =>
      match row with
      | .error r => .error r
      | .ok (cmd, payload) => .ok { dev := c.devId.get cls, sub := sub, cmd := cmd, payload := payload }

/-- The encoder of `(cls, act)` in the table of R210, or none. -/
def rowOf (c : Cfg) (cls : DeviceClass) (act : Action) (arg : BitVec 16) : Option Row :=
  match cls, act with
  | .light, .on => some (lightSetRow c true)
  | .light, .off => some (lightSetRow c false)
  | .thermostat, .hvac => some (thModeRow c arg)
  | .thermostat, .temp => some (thTempRow c arg)
  | .thermostat, .away => some (thAwayRow c arg)
  | .ventilation, .on => some (ventPowerRow c true)
  | .ventilation, .off => some (ventPowerRow c false)
  | .ventilation, .speed => some (ventSpeedRow c arg)
  | .gasValve, _ => some (gasCloseRow c)
  | .elevator, .call => some (elevCallRow c)
  | _, _ => none

/-- `ENC(cls, zone, act, arg)` (R210), the refusals tested in the order of R212. -/
def encodeCommand (c : Cfg) (cls : BitVec 3) (act : Action) (zone : Byte) (arg : BitVec 16) : Except Reason BuildArgs :=
  match classOfTag cls with
  | none => .error .badClass
  | some k =>
    match rowOf c k act arg with
    | none => .error .badAction
    | some row => encTail c k zone row

/-- `BLD.BUILD(dev, sub, cmd, payload)` (R241, R242). -/
def buildFrame (dev sub cmd : Byte) (payload : Bytes) : Except Reason Bytes :=
  if 255 < payload.length then .error .badLength else .ok (frameOf dev sub cmd payload)

/-- The bytes TX.CMD delivers, or the reason it refuses (R223). -/
def transmitOf (c : Cfg) (cls : BitVec 3) (act : Action) (zone : Byte) (arg : BitVec 16) : Except Reason Bytes :=
  match encodeCommand c cls act zone arg with
  | .error r => .error r
  | .ok a => buildFrame a.dev a.sub a.cmd a.payload

/-- `cmd_reason` (R101). -/
def reasonCode : Reason → BitVec 3
  | .badClass => 1
  | .badAction => 2
  | .badZone => 3
  | .subOverflow => 4
  | .badArg => 5
  | .badLength => 6

/-- The result of an ENC row as a returned value. -/
def retOfArgs : Except Reason BuildArgs → Ret
  | .ok a => .args a
  | .error r => .refused r

/-- The result of BLD.BUILD as a returned value. -/
def retOfBytes : Except Reason Bytes → Ret
  | .ok bs => .bytes bs
  | .error r => .refused r

end Sys2Proof.Machine
end

