-- ==== Sys2Proof/Machine/Chk.lean ====
section
/-! DEFINITION. The meanings of unit CHK (spec/40_checksum.md): CHK.XOR, CHK.ADD, CHK.VALIDATE, CHK.GEN as operations. Each returns
its value; the working latches `xacc`, `aacc` start at 0 in every evaluation and are left as the pass of R129 leaves them (R24,
R31). Nothing else changes (R120). -/

namespace Sys2Proof.Machine

/-- CHK.XOR (R121): `aacc` stays at the 0 every evaluation starts with. -/
def execChkXor (bs : Bytes) (s : State) : Outcome :=
  .next (setRet (.byte (xorOf bs)) (setAcc (xorOf bs) 0 s))

/-- CHK.ADD (R122). -/
def execChkAdd (bs : Bytes) (s : State) : Outcome :=
  .next (setRet (.byte (addOf bs)) (setAcc 0 (addOf bs) s))

/-- CHK.VALIDATE (R123), computed in the incremental form of R129. -/
def execChkValidate (f : Bytes) (s : State) : Outcome :=
  .next (setRet (.truth (accValidate f).2.2) (setAcc (accValidate f).1 (accValidate f).2.1 s))

/-- CHK.GEN (R124), computed in the incremental form of R129. -/
def execChkGen (bs : Bytes) (s : State) : Outcome :=
  .next (setRet (.bytes (accGen bs).2.2) (setAcc (accGen bs).1 (accGen bs).2.1 s))

end Sys2Proof.Machine
end

