-- ==== Sys2Proof/Machine/Frs.lean ====
section
/-! DEFINITION. The meanings of unit FRS but for FRS.FEED.B (spec/41_reassembler.md): BFE.RESET, FRS.FLUSH, FRS.GUARD and the six
micro-steps; and the extraction loop as one function (R149). A micro-step's meaning is its pseudocode; that it is selected by its
phase (R96) is the step's part. -/

namespace Sys2Proof.Machine

/-- BFE.RESET (R151, R31): buffer empty, `ph = Q`, latches and accumulators 0, every output not yet taken dropped, on both sides;
`CFG` unchanged. What the consumers have taken, and the record of what was emitted and pushed, are not recalled (R294). -/
def execBfeReset (s : State) : Outcome :=
  .next { s with
    buf := [], ph := .q, i := some 0, d := 0, L := 0, dev := 0, sub := 0, cmd := 0, xacc := 0, aacc := 0,
    decSlot := none, frmOut := [], stOut := [], txOut := [], cmdRefused := none, ret := .none }

/-- FRS.FLUSH (R150): the buffer is emptied, `ph <- Q`; the accumulators read 0 (R31's table); the transmit side and the outputs
are untouched (R292). -/
def execFrsFlush (s : State) : Outcome :=
  .next (stop (setAcc 0 0 { s with buf := [] }))

/-- FRS.GUARD (R142). -/
def execFrsGuard (s : State) : Outcome :=
  .next { s with buf := guardBuf s.cfg.bufBound s.buf }

/-- FRS.S1 (R143): the first 0xF7; if there is none the buffer is cleared and the loop stops. -/
def execFrsS1 (s : State) : Outcome :=
  match find SYNC s.buf with
  | none => .next (stop { s with i := none, buf := [] })
  | some k => .next (goto .s2 { s with i := some k })

/-- FRS.S2 (R144): the bytes before the sync byte are dropped. -/
def execFrsS2 (s : State) : Outcome :=
  match s.i with
  | none => .fault .noSyncIndex
  | some k =>
    match bufDrop k s.buf with
    | none => .fault .beyondBuffer
    | some b => .next (goto .s3 { s with buf := b })

/-- FRS.S3 (R145): stop on an incomplete header. -/
def execFrsS3 (s : State) : Outcome :=
  if headerShort s.buf then .next (stop s) else .next (goto .s4 s)

/-- FRS.S4 (R146): `d <- MemRead(4, 1)`, `L <- d + 7`. -/
def execFrsS4 (s : State) : Outcome :=
  match memRead s.buf 4 1 with
  | some [d] => .next (goto .s5 { s with d := d, L := totalLength d })
  | _ => .fault .beyondBuffer

/-- FRS.S5 (R147): stop on an incomplete candidate. -/
def execFrsS5 (s : State) : Outcome :=
  if candidateShort s.buf s.L then .next (stop s) else .next (goto .s6 s)

/-- FRS.S6 (R148): the candidate `F` is read and validated (CHK.VALIDATE leaves its accumulators, R24); valid: emitted, the latches
`dev`, `sub`, `cmd` loaded, `L` bytes removed; not valid: exactly one byte removed. Either way `ph <- S1`. -/
def execFrsS6 (s : State) : Outcome :=
  match memRead s.buf 0 s.L with
  | none => .fault .beyondBuffer
  | some f =>
    let t := setAcc (accValidate f).1 (accValidate f).2.1 s
    if valid f then
      match f[1]?, f[2]?, f[3]?, bufDrop s.L s.buf with
      | some dev, some sub, some cmd, some b =>
        .next (goto .s1 { emitFrame f t with dev := dev, sub := sub, cmd := cmd, buf := b })
      | _, _, _, _ => .fault .beyondBuffer
    else
      match bufDrop 1 s.buf with
      | some b => .next (goto .s1 { t with buf := b })
      | none => .fault .beyondBuffer

/-- The extraction loop as a function of the buffer (R149), with a bound on the passes. -/
def extractWithin : Nat → Bytes → Bytes × List Bytes
  | 0, s => (s, [])
  | n + 1, s =>
    match find SYNC s with
    | none => ([], [])
    | some i =>
      let b := s.drop i
      match b[4]? with
      | none => (b, [])
      | some d =>
        let l := totalLength d
        if b.length < l then (b, [])
        else if valid (b.take l) then
          let r := extractWithin n (b.drop l)
          (r.1, b.take l :: r.2)
        else extractWithin n (b.drop 1)

/-- `extract(s)` of R149. Each pass shortens the sequence, so `len(s) + 1` passes are enough (R160). -/
def extract (s : Bytes) : Bytes × List Bytes := extractWithin (s.length + 1) s

/-- The consumed byte count of a receive operation (R154): `len(buf before) + (bytes appended) - len(buf after)`. -/
def consumed (before : State) (appended : Nat) (after : State) : Nat := before.buf.length + appended - after.buf.length

end Sys2Proof.Machine
end

