-- ==== Sys2Proof/Machine/Dec.lean ====
section
/-! DEFINITION. The meanings of unit DEC (spec/42_decode.md): each pushes the DeviceStates of one emitted frame, in ascending zone
order (R191), on the state port as words (R95). DEC reads no state but `CFG` and writes nothing else (R180). Operands no decoder reads (R190) are named with an
underscore. -/

namespace Sys2Proof.Machine

/-- `push s` for each of the states (R17, R100): recorded, and offered on the state port as DSW words. -/
def pushStates (sts : List DeviceState) (s : State) : State :=
  { offerSt (sts.map dsw) s with pushed := s.pushed ++ sts }

/-- DEC.LIGHT (R181). -/
def execDecLight (_sub : Byte) (data : Bytes) (s : State) : Outcome := .next (pushStates (lightStates data) s)

/-- DEC.THERMO (R182). -/
def execDecThermo (_sub : Byte) (data : Bytes) (s : State) : Outcome := .next (pushStates (thermoStates s.cfg.tempOrder data) s)

/-- DEC.VENT (R184). -/
def execDecVent (_sub : Byte) (data : Bytes) (s : State) : Outcome := .next (pushStates (ventStates s.cfg data) s)

/-- DEC.GAS (R186). -/
def execDecGas (_sub : Byte) (data : Bytes) (s : State) : Outcome := .next (pushStates (gasStates data) s)

/-- DEC.ELEV (R187). -/
def execDecElev (_sub : Byte) (data : Bytes) (s : State) : Outcome := .next (pushStates (elevStates data) s)

/-- DEC.IGNORE (R188): nothing is pushed. -/
def execDecIgnore (_dev _sub _cmd : Byte) (_data : Bytes) (s : State) : Outcome := .next (pushStates [] s)

/-- The decoder of the key applied to the data region (R180), inside FRS.FEED.B. -/
def runDecoder (key : Option DeviceClass) (dev sub cmd : Byte) (data : Bytes) (s : State) : Outcome :=
  match key with
  | some .light => execDecLight sub data s
  | some .thermostat => execDecThermo sub data s
  | some .ventilation => execDecVent sub data s
  | some .gasValve => execDecGas sub data s
  | some .elevator => execDecElev sub data s
  | none => execDecIgnore dev sub cmd data s

/-- DEC on the frame handed over by FRS.S6 (R153, R180). A byte string without the shape of a frame, which FRS never hands over
(R162), is decoded to nothing, as R92 and R189 treat whatever DEC does not understand (DEDUCED, log 15). -/
def decodeEmitted (f : Bytes) (s : State) : Outcome :=
  match frameFields f with
  | .error _ => .next (pushStates [] s)
  | .ok (dev, sub, cmd, data) => runDecoder (decodeKey s.cfg dev cmd) dev sub cmd data s

/-- `DEC(F)` as a function of the frame and the configuration (R180): the DeviceStates it returns. -/
def statesOf (c : Cfg) (f : Bytes) : List DeviceState :=
  match frameFields f with
  | .error _ => []
  | .ok (dev, _, cmd, data) =>
    match decodeKey c dev cmd with
    | some .light => lightStates data
    | some .thermostat => thermoStates c.tempOrder data
    | some .ventilation => ventStates c data
    | some .gasValve => gasStates data
    | some .elevator => elevStates data
    | none => []

/-- What is done for a selecting word that names no row of the operation map. A call of ENC outside the table of R210 ends in the
refusal of that rule's own test; a frame's word without the shape of a frame is decoded to nothing (DEDUCED, safe, log 15); at
phase `Q` no operation is in progress (R25), and code 111 never occurs (R97). -/
def noOperation (e : DecodeError) (s : State) : State :=
  match e with
  | .noClass => refuse .badClass s
  | .noAction => refuse .badAction s
  | .shortFrame => pushStates [] s
  | .badSync => pushStates [] s
  | .lengthMismatch => pushStates [] s
  | .idlePhase => s
  | .unusedPhase => s

end Sys2Proof.Machine
end

