-- ==== Sys2Proof/Machine/Feed.lean ====
section
/-! DEFINITION. FRS.FEED.B (spec/41_reassembler.md R141): append, guard, then the loop of micro-steps, each emitted frame decoded
before the loop goes on (R153), until the phase is `Q` or an output waits for its consumer (R29: "if the frame consumer is slow,
the loop waits for it and so does the byte input"). A loop that waits is carried on by the following steps. -/

namespace Sys2Proof.Machine

/-- The micro-step selected by the phase (R96); none at `Q`. -/
def microStep (s : State) : Option Outcome :=
  match s.ph with
  | .q => none
  | .s1 => some (execFrsS1 s)
  | .s2 => some (execFrsS2 s)
  | .s3 => some (execFrsS3 s)
  | .s4 => some (execFrsS4 s)
  | .s5 => some (execFrsS5 s)
  | .s6 => some (execFrsS6 s)

/-- What the receive engine does next, if it is neither quiescent nor waiting for a consumer: with bytes of an emitted frame still
offered it waits; then DEC takes the frame; with state words still offered it waits; then the loop goes on (R153). -/
def rxAdvance (s : State) : Option Outcome :=
  match s.frmOut with
  | _ :: _ => none
  | [] =>
    match s.decSlot with
    | some f => some (decodeEmitted f { s with decSlot := none })
    | none =>
      match s.stOut with
      | _ :: _ => none
      | [] => microStep s

/-- The loop of R141, at most `n` actions of the engine. -/
def rxLoop : Nat → State → Outcome
  | 0, s => .next s
  | n + 1, s =>
    match rxAdvance s with
    | none => .next s
    | some (.next t) => rxLoop n t
    | some (.fault r) => .fault r
    | some (.refused r) => .refused r

/-- Enough actions for the loop on the buffer (R160): at most `len(buf) + 1` passes, each of at most six micro-steps and one
decode. -/
def loopBound (buf : Bytes) : Nat := 7 * (buf.length + 1)

/-- FRS.FEED.B up to the loop (R141): the byte appended, the guard applied, `ph <- S1`. -/
def feedStart (b : Byte) (s : State) : State :=
  goto .s1 { s with buf := guardBuf s.cfg.bufBound (memAppend s.buf [b]) }

/-- FRS.FEED.B (R141). -/
def execFrsFeedB (b : Byte) (s : State) : Outcome :=
  rxLoop (loopBound (feedStart b s).buf) (feedStart b s)

/-- A receive operation that is issued starts at once: the engine stands at `ph = Q` (R141, R150), and no byte, flush or issued
operation waits before it (R58). DESIGN CHOICE (unsafe, log 9): nor does one start while `rst = 1` stands, of which R99, R152 and
R292 say nothing; it is issued, and the following cycles treat it as they treat every offer (log 18). -/
def rxFree (s : State) : Bool :=
  !s.host.levels.rst && decide (s.ph = .q) && !s.host.flushPin && s.host.rxPin.isNone && s.host.issued.isEmpty

/-- Receive operations that cannot start yet wait behind all that were issued before them (R58, R297). -/
def issue (ops : List RxOp) (s : State) : State := { s with host := { s.host with issued := s.host.issued ++ ops } }

/-- The pseudo-operation FEED on a chunk (R99, R152): FRS.FEED.B for each byte in order, each started only when the operations
issued before it are over (R58, R141, R29). DESIGN CHOICE (safe, log 9): where one of them still waits (the loop of a byte for a
slow consumer, or what stands at the ports), or `rst = 1` stands, FEED answers with the bytes that are left issued; the following
steps feed them in order. -/
def feedChunk : Bytes → State → Outcome
  | [], s => .next s
  | b :: bs, s =>
    if rxFree s then andThen (execFrsFeedB b s) (feedChunk bs)
    else .next (issue ((b :: bs).map .byte) s)

/-- The pseudo-operation CONNECT (R99): FLUSH, started only when the receive operations issued before it are over (R58, R150, R296).
DESIGN CHOICE (safe, log 9): where one of them still waits, or `rst = 1` stands, CONNECT answers with the flush issued, and a following step takes it. -/
def connect (s : State) : Outcome :=
  if rxFree s then execFrsFlush s else .next (issue [.flush] s)

end Sys2Proof.Machine
end

