-- ==== Sys2Proof/Machine/Enc.lean ====
section
/-! DEFINITION. The meanings of unit ENC (spec/43_encode.md): each row returns the inputs of BLD.BUILD or refuses, by R210 from the
row on (zone, sub-address, argument, in the order of R212). ENC is a pure function of its operands and `CFG`: only the returned
value changes. Operands that a row ignores (R94, R213, R218, R221, R222) are named with an underscore. -/

namespace Sys2Proof.Machine

/-- ENC.LIGHT.SET (R213). -/
def execEncLightSet (on : Bool) (_rsv : BitVec 2) (zone : Byte) (_arg : BitVec 16) (s : State) : Outcome :=
  .next (setRet (retOfArgs (encTail s.cfg .light zone (lightSetRow s.cfg on))) s)

/-- ENC.TH.MODE (R214). -/
def execEncThMode (_rsv : BitVec 2) (zone : Byte) (arg : BitVec 16) (s : State) : Outcome :=
  .next (setRet (retOfArgs (encTail s.cfg .thermostat zone (thModeRow s.cfg arg))) s)

/-- ENC.TH.TEMP (R215). -/
def execEncThTemp (_rsv : BitVec 2) (zone : Byte) (arg : BitVec 16) (s : State) : Outcome :=
  .next (setRet (retOfArgs (encTail s.cfg .thermostat zone (thTempRow s.cfg arg))) s)

/-- ENC.TH.AWAY (R217). -/
def execEncThAway (_rsv : BitVec 2) (zone : Byte) (arg : BitVec 16) (s : State) : Outcome :=
  .next (setRet (retOfArgs (encTail s.cfg .thermostat zone (thAwayRow s.cfg arg))) s)

/-- ENC.VENT.POWER (R218). -/
def execEncVentPower (on : Bool) (_rsv : BitVec 2) (zone : Byte) (_arg : BitVec 16) (s : State) : Outcome :=
  .next (setRet (retOfArgs (encTail s.cfg .ventilation zone (ventPowerRow s.cfg on))) s)

/-- ENC.VENT.SPEED (R219). -/
def execEncVentSpeed (_rsv : BitVec 2) (zone : Byte) (arg : BitVec 16) (s : State) : Outcome :=
  .next (setRet (retOfArgs (encTail s.cfg .ventilation zone (ventSpeedRow s.cfg arg))) s)

/-- ENC.GAS.CLOSE (R221): neither the action nor the argument is examined. -/
def execEncGasClose (_act : Action) (_rsv : BitVec 2) (zone : Byte) (_arg : BitVec 16) (s : State) : Outcome :=
  .next (setRet (retOfArgs (encTail s.cfg .gasValve zone (gasCloseRow s.cfg))) s)

/-- ENC.ELEV.CALL (R222). -/
def execEncElevCall (_rsv : BitVec 2) (zone : Byte) (_arg : BitVec 16) (s : State) : Outcome :=
  .next (setRet (retOfArgs (encTail s.cfg .elevator zone (elevCallRow s.cfg))) s)

end Sys2Proof.Machine
end

