-- ==== Sys2Proof/Machine/Tx.lean ====
section
/-! DEFINITION. The meanings of BLD.BUILD (spec/44_builder.md) and of the transmit operation TX.CMD (spec/43_encode.md R223). The
transmit side reads its operands and `CFG` and shares no state with the receive side (R60, R240): it leaves the accumulators
`xacc`, `aacc`, which are the receive engine's (R24). -/

namespace Sys2Proof.Machine

/-- BLD.BUILD (R241): the frame, or `refuse(BAD_LENGTH)` (R242). -/
def execBldBuild (dev sub cmd : Byte) (payload : Bytes) (s : State) : Outcome :=
  .next (setRet (retOfBytes (buildFrame dev sub cmd payload)) s)

/-- TX.CMD (R223): ENC, then BLD.BUILD, then the bytes on the tx port in index order; or the pulse on `cmd_refused`. -/
def execTxCmd (cls : BitVec 3) (act : Action) (_rsv : BitVec 2) (zone : Byte) (arg : BitVec 16) (s : State) : Outcome :=
  match transmitOf s.cfg cls act zone arg with
  | .error r => .next (pulseRefused r s)
  | .ok bytes => .next (offerTx (txBeats bytes) (setRet (.bytes bytes) { s with cmdRefused := none }))

end Sys2Proof.Machine
end

