-- ==== Sys2Proof/Machine/Dispatch.lean ====
section
/-! DEFINITION. One arm per operation: the meaning of each. -/

namespace Sys2Proof.Machine

def exec (i : Instr) (s : State) : Host.Outcome State Fault Refusal :=
  match i with
  | .bfeReset => Sys2Proof.Machine.execBfeReset s
  | .frsFlush => Sys2Proof.Machine.execFrsFlush s
  | .frsFeedB b => Sys2Proof.Machine.execFrsFeedB b s
  | .frsGuard => Sys2Proof.Machine.execFrsGuard s
  | .frsS1 => Sys2Proof.Machine.execFrsS1 s
  | .frsS2 => Sys2Proof.Machine.execFrsS2 s
  | .frsS3 => Sys2Proof.Machine.execFrsS3 s
  | .frsS4 => Sys2Proof.Machine.execFrsS4 s
  | .frsS5 => Sys2Proof.Machine.execFrsS5 s
  | .frsS6 => Sys2Proof.Machine.execFrsS6 s
  | .chkXor bs => Sys2Proof.Machine.execChkXor bs s
  | .chkAdd bs => Sys2Proof.Machine.execChkAdd bs s
  | .chkValidate f => Sys2Proof.Machine.execChkValidate f s
  | .chkGen bs => Sys2Proof.Machine.execChkGen bs s
  | .decLight sub data => Sys2Proof.Machine.execDecLight sub data s
  | .decThermo sub data => Sys2Proof.Machine.execDecThermo sub data s
  | .decVent sub data => Sys2Proof.Machine.execDecVent sub data s
  | .decGas sub data => Sys2Proof.Machine.execDecGas sub data s
  | .decElev sub data => Sys2Proof.Machine.execDecElev sub data s
  | .decIgnore dev sub cmd data => Sys2Proof.Machine.execDecIgnore dev sub cmd data s
  | .encLightSet on rsv zone arg => Sys2Proof.Machine.execEncLightSet on rsv zone arg s
  | .encThMode rsv zone arg => Sys2Proof.Machine.execEncThMode rsv zone arg s
  | .encThTemp rsv zone arg => Sys2Proof.Machine.execEncThTemp rsv zone arg s
  | .encThAway rsv zone arg => Sys2Proof.Machine.execEncThAway rsv zone arg s
  | .encVentPower on rsv zone arg => Sys2Proof.Machine.execEncVentPower on rsv zone arg s
  | .encVentSpeed rsv zone arg => Sys2Proof.Machine.execEncVentSpeed rsv zone arg s
  | .encGasClose act rsv zone arg => Sys2Proof.Machine.execEncGasClose act rsv zone arg s
  | .encElevCall rsv zone arg => Sys2Proof.Machine.execEncElevCall rsv zone arg s
  | .bldBuild dev sub cmd payload => Sys2Proof.Machine.execBldBuild dev sub cmd payload s
  | .txCmd cls act rsv zone arg => Sys2Proof.Machine.execTxCmd cls act rsv zone arg s

end Sys2Proof.Machine
end

