-- ==== Sys2Proof/Machine/Ports.lean ====
section
/-! DEFINITION. What a step does around an operation: the outside agents' cycle at the ports (spec/30_encoding.md R100), the choice
of the operation each agent runs (R96 "selected by", R19, R55, R150, R296), and the output ports as functions of the state. One
step is one cycle at the level of transfers; no rule depends on a cycle count (R100, R305). -/

namespace Sys2Proof.Machine

/-! ## The cycle -/

/-- The levels of this cycle: the next of the wave, or as they stand. -/
def nextLevels (h : HostSide) : HostSide :=
  match h.wave with
  | [] => h
  | l :: ls => { h with levels := l, wave := ls }

/-- `flush_req`: a request not yet taken stays (R150: "it waits"; log 25); otherwise the next level stands. Its port is apart from
the rx port, so it may rise while a byte stands untaken. -/
def nextFlush (h : HostSide) : HostSide :=
  match h.flushPin, h.flushIn with
  | false, f :: fs => { h with flushPin := f, flushIn := fs }
  | _, _ => h

/-- The byte at the rx port: an offer not yet taken is held (R100); otherwise the next one stands. -/
def nextRx (h : HostSide) : HostSide :=
  match h.rxPin, h.rxIn with
  | none, o :: os => { h with rxPin := o, rxIn := os }
  | _, _ => h

/-- The oldest issued operation comes to its port when no byte and no flush stands there, so that they are taken in the order
they were issued (R58, R296, R297). -/
def nextIssued (h : HostSide) : HostSide :=
  match h.flushPin, h.rxPin, h.issued with
  | false, none, .byte b :: ops => { h with rxPin := some b, issued := ops }
  | false, none, .flush :: ops => { h with flushPin := true, issued := ops }
  | _, _, _ => h

/-- The receive side's offers: the operations issued by FEED and CONNECT; the levels and bytes that follow stand only when none of
those waits (DESIGN CHOICE, safe, log 9). DESIGN CHOICE (unsafe, log 9): an issued byte that has come to its port is there a byte
like any other, and with no more issued the host's next flush may rise beside it and is then taken first (R150). -/
def nextReceive (h : HostSide) : HostSide :=
  match h.issued with
  | [] => nextRx (nextFlush h)
  | _ :: _ => nextIssued h

/-- The offer at the cmd port: held until taken; otherwise the next one stands. -/
def nextCmd (h : HostSide) : HostSide :=
  match h.cmdPin, h.cmdIn with
  | none, o :: os => { h with cmdPin := o, cmdIn := os }
  | _, _ => h

/-- The outside agents' side of the ports in the next cycle. -/
def nextHost (h : HostSide) : HostSide := nextCmd (nextReceive (nextLevels h))

/-- One transfer on the frame port, if a beat is offered and `frm_ready = 1`. -/
def takeFrm (s : State) : State :=
  match s.host.levels.frmReady, s.frmOut with
  | true, b :: bs => { s with frmTaken := s.frmTaken ++ [b], frmOut := bs }
  | _, _ => s

/-- One transfer on the state port, if a word is offered and `st_ready = 1`. -/
def takeSt (s : State) : State :=
  match s.host.levels.stReady, s.stOut with
  | true, w :: ws => { s with stTaken := s.stTaken ++ [w], stOut := ws }
  | _, _ => s

/-- One transfer on the tx port, if a beat is offered and `tx_ready = 1`. -/
def takeTx (s : State) : State :=
  match s.host.levels.txReady, s.txOut with
  | true, b :: bs => { s with txTaken := s.txTaken ++ [b], txOut := bs }
  | _, _ => s

/-- What passes in a cycle before an operation is selected: the outside agents move on, the one-cycle pulse on `cmd_refused` ends,
and every ready consumer takes one beat of what is offered to it. -/
def cycle (s : State) : State :=
  takeTx (takeSt (takeFrm { s with host := nextHost s.host, cmdRefused := none }))

/-! ## Selection: what each agent runs in a cycle -/

/-- The receive engine's own next operation away from `ph = Q`, with the state it runs in (the engine's order is `rxAdvance`'s,
R153): DEC on the handed-over frame, or the micro-step of the phase; none while it waits for a consumer. -/
def rxGoOn (s : State) : Option (OpWord × State) :=
  match s.frmOut with
  | _ :: _ => none
  | [] =>
    match s.decSlot with
    | some f => some (.frame f, { s with decSlot := none })
    | none =>
      match s.stOut with
      | _ :: _ => none
      | [] => if s.ph = .q then none else some (.phase (phaseCode s.ph), s)

/-- The receive side's offer taken at `ph = Q` (R150: a flush before a byte that stands in the same cycle). -/
def rxAccept (s : State) : Option (OpWord × State) :=
  match s.host.flushPin, s.host.rxPin with
  | true, _ => some (.flush, { s with host := { s.host with flushPin := false } })
  | false, some b => some (.rx b, { s with host := { s.host with rxPin := none } })
  | false, none => none

/-- RX: an offer is taken only at `ph = Q` (R55, R141, R150); otherwise the engine goes on with its loop. -/
def rxSelect (s : State) : Option (OpWord × State) :=
  if s.ph = .q then rxAccept s else rxGoOn s

/-- TX: a command is taken when TX delivers no frame (R269). -/
def txSelect (s : State) : Option (OpWord × State) :=
  match s.host.cmdPin, s.txOut with
  | some w, [] => some (.cmd w, { s with host := { s.host with cmdPin := none } })
  | _, _ => none

/-- A call of an internal function (the model's own, log 3). -/
def callSelect (s : State) : Option (OpWord × State) :=
  match s.host.call with
  | some u => some (.unit u, { s with host := { s.host with call := none } })
  | none => none

/-- The state in which the selected operation would run, the offer it takes removed; the state itself where none is selected. -/
def offerTaken (sel : State → Option (OpWord × State)) (s : State) : State :=
  match sel s with
  | some (_, t) => t
  | none => s

/-- The offers that a cycle with `rst = 1` takes: those whose port is ready, as in every cycle (R100); their operations are abandoned
with everything in progress (R151). DESIGN CHOICE (unsafe, log 18). -/
def resetTakes (s : State) : State :=
  if s.ph = .q then offerTaken rxAccept (offerTaken txSelect s) else offerTaken txSelect s

/-- `rst = 1`: BFE.RESET, whatever `ph` is (R151); the configuration is what the `cfg_*` pins present (R293, log 19). -/
def rstSelect (s : State) : Option (OpWord × State) :=
  if s.host.levels.rst then some (.rst, { resetTakes s with cfg := s.host.levels.strap.getD s.cfg }) else none

/-! ## Output ports (R100)

The `ready` outputs and `flush_ack` answer the offers that stand in a cycle: they are read from the state after `cycle`. The
`valid` outputs and their data are what a cycle begins with: they are read from the state before it. -/

/-- `flush_ack`: 1 in the cycle the flush is taken. -/
def flushAck (s : State) : Bool := s.host.flushPin && decide (s.ph = .q)

/-- `rx_ready`: 1 exactly when `ph = Q` and no flush is being taken. -/
def rxReady (s : State) : Bool := decide (s.ph = .q) && !flushAck s

/-- `cmd_ready`: TX holds at most the one frame it is delivering (R269). -/
def cmdReady (s : State) : Bool := s.txOut.isEmpty

/-- `frm_valid`. -/
def frmValid (s : State) : Bool := !s.frmOut.isEmpty

/-- `st_valid`. -/
def stValid (s : State) : Bool := !s.stOut.isEmpty

/-- `tx_valid`. -/
def txValid (s : State) : Bool := !s.txOut.isEmpty

/-- `cmd_refused`. -/
def cmdRefusedPort (s : State) : Bool := s.cmdRefused.isSome

/-- `cmd_reason`, valid with `cmd_refused` (R101). -/
def cmdReasonPort (s : State) : Option (BitVec 3) := s.cmdRefused.map reasonCode

/-- `frm_data`, `frm_sof`, `frm_eof` of the beat offered. -/
def frmPort (s : State) : Option FrmBeat := s.frmOut.head?

/-- `st_word` offered. -/
def stPort (s : State) : Option Word32 := s.stOut.head?

/-- `tx_data`, `tx_eof` of the beat offered. -/
def txPort (s : State) : Option TxBeat := s.txOut.head?

/-! ## Placing an instruction where the step fetches it -/

/-- The shortest well-formed frame, R124's example. -/
def shortestFrame : Bytes := frameOf 0x00 0x00 0x00 []

/-- The buffer and latches with which the loop stands at phase `p`, as the transitions of R155 leave them. -/
def standsAt (p : Phase) (s : State) : Bool :=
  match p with
  | .q => true
  | .s1 => true
  | .s2 => match s.i with
    | some k => decide (k ≤ s.buf.length)
    | none => false
  | .s3 => true
  | .s4 => !headerShort s.buf
  | .s5 => true
  | .s6 => decide (7 ≤ s.L) && !candidateShort s.buf s.L

/-- The state `s` with the loop standing at phase `p`. Where the buffer and latches of `s` are none with which R155 reaches `p`
(at reset: S4 and S6, whose reads need bytes in the buffer), they are those of the shortest frame just received. -/
def placePhase (p : Phase) (s : State) : State :=
  if standsAt p s then { s with ph := p }
  else { s with ph := p, buf := shortestFrame, i := some 0, d := 0, L := totalLength 0 }

/-- The state `s` in which the very next step selects `o`: nothing else is offered, no level changes, `rst = 0` unless `o` is the
reset, and no output holds the engine back. -/
def placeOp (o : OpWord) (s : State) : State :=
  let quiet : HostSide :=
    { s.host with
      levels := { s.host.levels with rst := false }, wave := [], flushPin := false, flushIn := [], rxPin := none, rxIn := [],
      issued := [], cmdPin := none, cmdIn := [], call := none }
  match o with
  | .rst => { s with host := { quiet with levels := { quiet.levels with rst := true, strap := none } } }
  | .flush => { s with ph := .q, host := { quiet with flushPin := true } }
  | .rx b => { s with ph := .q, host := { quiet with rxPin := some b } }
  | .phase code =>
    match phaseOfCode code with
    | none => s
    | some p => placePhase p { s with decSlot := none, frmOut := [], stOut := [], host := quiet }
  | .frame f => { s with ph := .s1, decSlot := some f, frmOut := [], host := quiet }
  | .cmd w => { s with txOut := [], host := { quiet with cmdPin := some w } }
  | .unit u => { s with host := { quiet with call := some u } }

end Sys2Proof.Machine
end

