-- ==== Sys2Proof/Machine/Agents.lean ====
section
/-! DEFINITION. What the agents do in one cycle: for each the operation it selects, its decoding and its meaning. RX and TX are agents
of their own (spec/00_scope.md R19): both may take an offer in one cycle (spec/30_encoding.md R100, spec/70_reset_and_hazards.md
R299). -/

namespace Sys2Proof.Machine

/-- The operation an agent selects, run in the state its selection leaves; with nothing selected the agent idles (R291). A word that
names no row is `noOperation`'s. -/
def runSelected (sel : State → Option (OpWord × State)) (s : State) : Outcome :=
  match sel s with
  | none => .next s
  | some (o, t) =>
    match decode t.cfg o with
    | .ok i => exec i t
    | .error e => .next (noOperation e t)

/-- The agents in one cycle out of reset: a call, TX, RX. DESIGN CHOICE (safe, log 5): they are run in this order; by R60 the order
of TX and RX makes no difference. -/
def runAgents (c : State) : Outcome :=
  andThen (andThen (runSelected callSelect c) (runSelected txSelect)) (runSelected rxSelect)

end Sys2Proof.Machine
end

