-- ==== Sys2Proof/Machine/Step.lean ====
section
/-! DEFINITION. One step of BFE: the cycle at the ports, then the reset or the agents. -/

namespace Sys2Proof.Machine

/-- One step: the cycle at the ports; then BFE.RESET where `rst = 1`, otherwise the agents, under a configuration that meets its
constraints (R293). -/
def step (s : State) : Host.Outcome State Fault Refusal :=
  let c := cycle s
  if c.host.levels.rst then runSelected rstSelect c
  else if c.cfg.wf then runAgents c
  else .fault .illFormedCfg

/-- `s` with the row of spec/opcode_table.json whose bits are `w` standing where the next step selects its operation. -/
def State.withFetchWord (s : State) (nbits w : Nat) : State :=
  match opWordOf nbits w with
  | none => s
  | some o => placeOp o s

end Sys2Proof.Machine
end

