-- ==== Sys2Proof/Machine/Ring.lean ====
section
/-! DEFINITION. The store of the buffer in a realisation (spec/10_state.md R22): a RAM of `BUF_CAP` bytes, a head index and a count,
`buf[k]` stored at RAM address `(hd + k) mod BUF_CAP`. Not architectural: "two realisation states with the same `buf` are the same
state", so `State` holds `buf` alone; this file says what the realisation's three operations are, so that they can be compared. -/

namespace Sys2Proof.Machine

/-- The realisation of the buffer (R22); `BUF_CAP` is the length of `ram`. -/
structure Ring where
  ram : Bytes
  hd : Nat
  cnt : Nat
deriving DecidableEq, Repr

/-- `BUF_CAP >= 262` (R13, R22), `hd` in `0 .. BUF_CAP-1`, `cnt` in `0 .. BUF_CAP` (R22). -/
def ringOk (r : Ring) : Bool :=
  decide (262 ≤ r.ram.length) && decide (r.hd < r.ram.length) && decide (r.cnt ≤ r.ram.length)

/-- `buf[k]`, at RAM address `(hd + k) mod BUF_CAP` (R22). -/
def ringByte (r : Ring) (k : Nat) : Byte := r.ram.getD ((r.hd + k) % r.ram.length) 0

/-- The buffer a realisation state stands for; `len(buf) = cnt` (R22). -/
def ringBuf (r : Ring) : Bytes := (List.range r.cnt).map (ringByte r)

/-- Append one byte behind the live bytes. -/
def ringAppend (r : Ring) (b : Byte) : Ring :=
  { r with ram := r.ram.set ((r.hd + r.cnt) % r.ram.length) b, cnt := r.cnt + 1 }

/-- Discard `n` bytes from the front: a move of the read cursor (R22). -/
def ringDrop (n : Nat) (r : Ring) : Ring :=
  { r with hd := (r.hd + n) % r.ram.length, cnt := r.cnt - n }

/-- Discard everything, as RESET and FLUSH do: `cnt = 0`. R31 leaves `hd` and the RAM contents after them "unspecified": they are
the arguments `hd` and `ram`, free values that no definition chooses (DESIGN CHOICE of the form, safe, log 24). -/
def ringClear (hd : Nat) (ram : Bytes) : Ring := { ram := ram, hd := hd, cnt := 0 }

end Sys2Proof.Machine
end

