-- ==== Sys2Proof/Safety.lean ====
section
/-! DEFINITION. What a safe run is, in the terms the statements use: the invariant every step keeps, and the conditions on the
outside agents under which no step stops (spec/10_state.md R21; spec/41_reassembler.md R155, R158, R159, R162; spec/60_exceptions.md
R260). -/

namespace Sys2Proof.Machine

/-- Nothing is pending on the receive side's outputs (R29, R292: so it is whenever `ph = Q`). -/
def rxOutputsTaken (s : State) : Prop := s.frmOut = [] ∧ s.stOut = [] ∧ s.decSlot = none

/-- The buffer begins with a sync byte (FRS.S2's result, R144). -/
def startsWithSync (buf : Bytes) : Prop := buf[0]? = some SYNC

/-- What the transitions of R155 establish about the buffer and the latches at each phase. -/
def phaseOk (s : State) : Prop :=
  match s.ph with
  | .q => quiescent s.buf = true ∧ rxOutputsTaken s
  | .s1 => True
  | .s2 => (∃ k, s.i = some k ∧ find SYNC s.buf = some k) ∧ rxOutputsTaken s
  | .s3 => startsWithSync s.buf ∧ rxOutputsTaken s
  | .s4 => startsWithSync s.buf ∧ 5 ≤ s.buf.length ∧ rxOutputsTaken s
  | .s5 => startsWithSync s.buf ∧ s.buf[4]? = some s.d ∧ s.L = totalLength s.d ∧ rxOutputsTaken s
  | .s6 => startsWithSync s.buf ∧ s.buf[4]? = some s.d ∧ s.L = totalLength s.d ∧ s.L ≤ s.buf.length ∧ rxOutputsTaken s

/-- Every configuration the host will present with `rst = 1` meets the constraints (R293). -/
def strapsOk (h : HostSide) : Prop := ∀ l ∈ h.levels :: h.wave, ∀ c, l.strap = some c → c.wf = true

/-- The invariant: the configuration meets its constraints (R12, R93); at most 262 bytes are buffered (R159); the phase's
conditions hold (R155, R21); a frame handed to DEC, and every frame emitted, is well-formed (R162); TX holds at most the one frame
it is delivering (R269, nine bytes by R224); the outside agents keep to R293. -/
structure Inv (s : State) : Prop where
  cfgWf : s.cfg.wf = true
  bound : s.buf.length ≤ 262
  phase : phaseOk s
  slot : ∀ f, s.decSlot = some f → wellFormedFrame f = true
  frames : ∀ f ∈ s.emitted, wellFormedFrame f = true
  txOne : s.txOut.length ≤ 9
  straps : strapsOk s.host

/-- The receive engine is quiescent with nothing pending, as at the start of every FRS.FEED.B (R141, R21): `ph = Q` and every
output taken. -/
def rxIdle (s : State) : Prop := s.ph = .q ∧ rxOutputsTaken s

/-- Both consumers of the receive side are ready, so that no output waits (R300: "The host must take the outputs"). -/
def rxConsumersReady (s : State) : Prop := s.host.levels.frmReady = true ∧ s.host.levels.stReady = true

end Sys2Proof.Machine
end

