-- ==== Sys2Proof/Certificates/Slice0/Obligations.lean ====
section
/-! DEFINITION. The statements about BFE, for the provers. Each docstring names the rules of spec/ the statement formalises. Where
a statement mentions a field the log marks as the model's own (`ret`, `emitted`, `pushed`, the taken lists, `decSlot`), the field
is the place where the model keeps a value the spec says leaves the operation (log 2, 6, 7). The ring of R22 and the chunk
operations are functions beside the machine. -/

section
open Sys2Proof Sys2Proof.Machine

/-! ## Unit CHK -/

/-- R121: CHK.XOR on every operand and state, the working latches `xacc`, `aacc` left open; its corner cases and example. -/
def Obligations.ChkXorReturnsTheXorOfAllBytes : Prop :=
  (∀ (bs : Bytes) (s : State), ∃ x a : Byte,
    exec (.chkXor bs) s = .next { s with xacc := x, aacc := a, ret := .byte (xorOf bs) }) ∧
  xorOf [] = 0x00 ∧
  (∀ (b : Byte) (s : Bytes), xorOf (b :: s) = b ^^^ xorOf s) ∧
  (∀ b : Byte, xorOf [b] = b) ∧
  (∀ s t : Bytes, xorOf (s ++ t) = xorOf s ^^^ xorOf t) ∧
  (∀ s : Bytes, xorOf (s ++ [xorOf s]) = 0x00) ∧
  xorOf [0xF7, 0x0E, 0x11, 0x41, 0x02, 0x01, 0x01] = 0xAB

/-- R122: CHK.ADD on every operand and state, the working latches left open; its corner cases and example. -/
def Obligations.ChkAddReturnsTheSumModulo256 : Prop :=
  (∀ (bs : Bytes) (s : State), ∃ x a : Byte,
    exec (.chkAdd bs) s = .next { s with xacc := x, aacc := a, ret := .byte (addOf bs) }) ∧
  addOf [] = 0x00 ∧
  (∀ s : Bytes, (addOf s).toNat = (s.map BitVec.toNat).sum % 256) ∧
  (∀ s t : Bytes, addOf (s ++ t) = addOf s + addOf t) ∧
  addOf (List.replicate 256 0x01) = 0x00 ∧
  addOf [0xF7, 0x0E, 0x11, 0x41, 0x02, 0x01, 0x01, 0xAB] = 0x06

/-- R123, R129: CHK.VALIDATE, computed by the machine in the incremental form of R129, answers exactly the two comparisons of
R123, and false for fewer than two bytes; for two bytes or more it leaves the accumulators at the XOR over `F[0 ..< n-2]` and the
sum over `F[0 ..< n-1]`, whatever they held before (R129; that they hold it after the operation is DEDUCED, log 13); its corner
cases and examples. -/
def Obligations.ChkValidateTestsBothChecksums : Prop :=
  (∀ (f : Bytes) (s : State), ∃ (x a : Byte) (v : Bool),
    exec (.chkValidate f) s = .next { s with xacc := x, aacc := a, ret := .truth v } ∧
    (v = true ↔ 2 ≤ f.length ∧ f[f.length - 2]? = some (xorOf (f.take (f.length - 2))) ∧
      f[f.length - 1]? = some (addOf (f.take (f.length - 1)))) ∧
    v = valid f ∧
    (2 ≤ f.length → x = xorOf (f.take (f.length - 2)) ∧ a = addOf (f.take (f.length - 1)))) ∧
  (∀ f : Bytes, f.length < 2 → valid f = false) ∧
  (∀ x a : Byte, valid [x, a] = true ↔ x = 0x00 ∧ a = 0x00) ∧
  (∀ f : Bytes, 2 ≤ f.length → (addOK f = true ↔ f[f.length - 1]? =
    (f[f.length - 2]?).map fun x => addOf (f.take (f.length - 2)) + x)) ∧
  valid [0xF7, 0x0E, 0x11, 0x41, 0x02, 0x01, 0x01, 0xAB, 0x06] = true ∧
  valid [0xF7, 0x0E, 0x11, 0x41, 0x02, 0x01, 0x01, 0xAB, 0x07] = false ∧
  valid [0xF7, 0x0E, 0x11, 0x41, 0x02, 0x01, 0x01, 0xAA, 0x05] = false

/-- R124, R129: CHK.GEN on every operand and state; its corner cases and example. That the accumulators hold the two checksums
after the operation is DEDUCED from R129 (log 13). -/
def Obligations.ChkGenAppendsBothChecksums : Prop :=
  (∀ (bs : Bytes) (s : State), ∃ x a : Byte,
    x = xorOf bs ∧ a = addOf (bs ++ [x]) ∧
    exec (.chkGen bs) s = .next { s with xacc := x, aacc := a, ret := .bytes (bs ++ [x, a]) } ∧
    gen bs = bs ++ [x, a]) ∧
  (∀ s : Bytes, (gen s).length = s.length + 2) ∧
  gen [] = [0x00, 0x00] ∧
  gen [0xF7, 0x00, 0x00, 0x00, 0x00] = [0xF7, 0x00, 0x00, 0x00, 0x00, 0xF7, 0xEE]

/-- R125: generation validates; conversely a valid sequence is its own generation, so exactly one trailer validates. -/
def Obligations.GenerationValidatesAndIsUnique : Prop :=
  (∀ s : Bytes, valid (gen s) = true) ∧
  (∀ f : Bytes, 2 ≤ f.length → (valid f = true ↔ f = gen (f.take (f.length - 2)))) ∧
  (∀ s : Bytes, ∃! p : Byte × Byte, valid (s ++ [p.1, p.2]) = true)

/-- R126: any single flipped bit of a valid sequence makes validation fail; two flips of one bit position in the XOR range leave
it valid when the bit is bit 7 or the two bits differed. -/
def Obligations.SingleBitErrorsAreDetectedAndSomeDoubleOnesAreNot : Prop :=
  (∀ (f : Bytes) (k j : Nat) (b : Byte), valid f = true → f[k]? = some b → j < 8 →
    valid (f.set k (b ^^^ BitVec.twoPow 8 j)) = false) ∧
  (∀ (f : Bytes) (k m j : Nat) (b c : Byte), valid f = true → k < f.length - 2 → m < f.length - 2 → k ≠ m →
    f[k]? = some b → f[m]? = some c → j < 8 → (j = 7 ∨ b.getLsbD j ≠ c.getLsbD j) →
    valid ((f.set k (b ^^^ BitVec.twoPow 8 j)).set m (c ^^^ BitVec.twoPow 8 j)) = true) ∧
  valid [0xF7, 0x8E, 0x91, 0x41, 0x02, 0x01, 0x01, 0xAB, 0x06] = true

/-! ## Unit FRS: host operations -/

/-- R31, R290, R291: the values of the table of R31 after reset, and an idle block: `rx_ready = 1`, `cmd_ready = 1`, no output
offered, and a step that changes nothing (with the outside agents as the model's choice of log 2 has them). It holds for every
configuration the pins may hold. -/
def Obligations.ResetStateIsEmptyQuiescentAndIdle : Prop :=
  ∀ c : Cfg,
    (State.resetWith c).cfg = c ∧ (State.resetWith c).buf = [] ∧ (State.resetWith c).ph = .q ∧
    (State.resetWith c).i = some 0 ∧ (State.resetWith c).d = 0 ∧ (State.resetWith c).L = 0 ∧
    (State.resetWith c).dev = 0 ∧ (State.resetWith c).sub = 0 ∧ (State.resetWith c).cmd = 0 ∧
    (State.resetWith c).xacc = 0 ∧ (State.resetWith c).aacc = 0 ∧
    rxReady (State.resetWith c) = true ∧ cmdReady (State.resetWith c) = true ∧
    frmValid (State.resetWith c) = false ∧ stValid (State.resetWith c) = false ∧
    txValid (State.resetWith c) = false ∧ cmdRefusedPort (State.resetWith c) = false ∧
    (c.wf = true → step (State.resetWith c) = .next (State.resetWith c))

/-- R151: BFE.RESET in every state, whatever `ph` is: the state of R31, operations of both sides abandoned, outputs not yet taken
dropped, `CFG` unchanged; what the consumers have taken is not recalled (R294). -/
def Obligations.ResetClearsBothSidesInEveryState : Prop :=
  ∀ s : State,
    exec .bfeReset s = .next { State.resetWith s.cfg with
      frmTaken := s.frmTaken, stTaken := s.stTaken, txTaken := s.txTaken, emitted := s.emitted, pushed := s.pushed,
      host := s.host }

/-- R150: FRS.FLUSH empties the buffer and leaves `ph = Q` in every state, emits no frame and does not touch TX (the accumulators
read 0 by R31's table, log 13); and where a flush is requested at `ph = Q`, whether or not a byte stands in the same cycle, the
flush is taken and the byte stays offered. CONNECT (R99) is FLUSH where the engine stands at `ph = Q` and nothing issued before it
waits; otherwise it issues the flush behind what waits (R58) and answers (the model's choice, log 9, as is that `rst = 1` too makes
it wait), so that no receive operation
starts while another runs (R296). -/
def Obligations.FlushEmptiesTheBufferAndGoesBeforeAByte : Prop :=
  (∀ s : State, exec .frsFlush s = .next { s with buf := [], ph := .q, xacc := 0, aacc := 0 }) ∧
  (∀ (s c : State) (o : Option Byte), c = cycle s → c.cfg.wf = true → c.host.levels.rst = false → c.host.call = none →
    (c.host.cmdPin = none ∨ c.txOut ≠ []) → c.ph = .q → c.host.flushPin = true → c.host.rxPin = o →
    step s = exec .frsFlush { c with host := { c.host with flushPin := false, rxPin := o } }) ∧
  (∀ s : State, rxFree s = true ↔
    s.host.levels.rst = false ∧ s.ph = .q ∧ s.host.flushPin = false ∧ s.host.rxPin = none ∧ s.host.issued = []) ∧
  (∀ s : State, rxFree s = true → connect s = exec .frsFlush s) ∧
  (∀ s : State, rxFree s = false → connect s = .next { s with host := { s.host with issued := s.host.issued ++ [.flush] } })

/-- R141 with R149: from `ph = Q`, consumers ready, FRS.FEED.B computes `(buf, frames) <- extract(guard(buf ++ [b]))` and stops at
`ph = Q` with every output taken; each emitted frame goes out byte by byte and then its DeviceStates as words (R153); the transmit
side, the configuration and the host's side are untouched. That all of it is one step, in which a ready consumer takes everything,
is the model's choice (log 9, 10). This is the refinement of R149 by the micro-steps. -/
def Obligations.FeedByteComputesExtract : Prop :=
  ∀ (s : State) (b : Byte) (buf' : Bytes) (frames : List Bytes), rxIdle s → rxConsumersReady s →
    extract (guardBuf s.cfg.bufBound (s.buf ++ [b])) = (buf', frames) →
    ∃ t : State, exec (.frsFeedB b) s = .next t ∧
      t = { s with
        buf := buf', i := t.i, d := t.d, L := t.L, dev := t.dev, sub := t.sub, cmd := t.cmd, xacc := t.xacc, aacc := t.aacc,
        emitted := s.emitted ++ frames,
        pushed := s.pushed ++ frames.flatMap (statesOf s.cfg),
        frmTaken := s.frmTaken ++ frames.flatMap frameBeats,
        stTaken := s.stTaken ++ (frames.flatMap (statesOf s.cfg)).map dsw } ∧
      quiescent t.buf = true ∧ t.buf.length ≤ 261

/-- R29, R300, R148 (the step's extent is the model's choice, log 9, 10): when the frame consumer is not ready, FRS.FEED.B stops at
the first emitted frame with its bytes offered and the frame handed to DEC, not at `ph = Q`: the bytes up to the end of that frame
have left the buffer, the rest is still to be searched for the later frames, and no DeviceState of it is pushed. Nothing but the
receive side changes. -/
def Obligations.FeedByteWaitsForTheFrameConsumer : Prop :=
  ∀ (s : State) (b : Byte) (buf' f : Bytes) (fs : List Bytes), rxIdle s → s.host.levels.frmReady = false →
    extract (guardBuf s.cfg.bufBound (s.buf ++ [b])) = (buf', f :: fs) →
    ∃ (t : State) (skipped : Bytes), exec (.frsFeedB b) s = .next t ∧
      t = { s with
        buf := t.buf, ph := .s1, i := t.i, d := f.getD 4 0, L := f.length, dev := f.getD 1 0, sub := f.getD 2 0,
        cmd := f.getD 3 0, xacc := t.xacc, aacc := t.aacc,
        emitted := s.emitted ++ [f], frmOut := frameBeats f, decSlot := some f } ∧
      guardBuf s.cfg.bufBound (s.buf ++ [b]) = skipped ++ f ++ t.buf ∧
      extract t.buf = (buf', fs)

/-- R153, R29, R300 (the step's extent is the model's choice, log 9, 10): when the frame consumer is ready and the state consumer is
not, FRS.FEED.B goes on over the frames that decode to nothing and stops at the first frame with DeviceStates, its bytes taken and
its words offered on the state port, before the loop looks for the next frame; where no frame of that byte has a DeviceState, it
runs to `ph = Q`, as it does, whatever the consumers are ready for, where the byte releases no frame at all (R141, R149). Nothing
but the receive side changes. -/
def Obligations.FeedByteWaitsForTheStateConsumer : Prop :=
  (∀ (s : State) (b : Byte) (buf' f : Bytes) (before later : List Bytes), rxIdle s → s.host.levels.frmReady = true →
    s.host.levels.stReady = false →
    extract (guardBuf s.cfg.bufBound (s.buf ++ [b])) = (buf', before ++ f :: later) →
    (∀ g ∈ before, statesOf s.cfg g = []) → statesOf s.cfg f ≠ [] →
    ∃ (t : State) (skipped : Bytes), exec (.frsFeedB b) s = .next t ∧
      t = { s with
        buf := t.buf, ph := .s1, i := t.i, d := f.getD 4 0, L := f.length, dev := f.getD 1 0, sub := f.getD 2 0,
        cmd := f.getD 3 0, xacc := t.xacc, aacc := t.aacc,
        emitted := s.emitted ++ (before ++ [f]), frmTaken := s.frmTaken ++ (before ++ [f]).flatMap frameBeats,
        pushed := s.pushed ++ statesOf s.cfg f, stOut := (statesOf s.cfg f).map dsw } ∧
      guardBuf s.cfg.bufBound (s.buf ++ [b]) = skipped ++ f ++ t.buf ∧
      extract t.buf = (buf', later)) ∧
  (∀ (s : State) (b : Byte) (buf' : Bytes) (frames : List Bytes), rxIdle s → (s.host.levels.frmReady = true ∨ frames = []) →
    extract (guardBuf s.cfg.bufBound (s.buf ++ [b])) = (buf', frames) → (∀ g ∈ frames, statesOf s.cfg g = []) →
    ∃ t : State, exec (.frsFeedB b) s = .next t ∧
      t = { s with
        buf := buf', i := t.i, d := t.d, L := t.L, dev := t.dev, sub := t.sub, cmd := t.cmd, xacc := t.xacc, aacc := t.aacc,
        emitted := s.emitted ++ frames, frmTaken := s.frmTaken ++ frames.flatMap frameBeats })

/-- R100, R55, R150, R269, R296: a step takes an offer exactly when its handshake is complete. `rx_ready` is 1 exactly at `ph = Q`
with no flush being taken, `flush_ack` exactly when a flush is requested at `ph = Q`, `cmd_ready` exactly when TX delivers no frame
(R269); what is not taken stays offered, and away from `ph = Q` no byte and no flush is taken. That the three are read after the
beats of the cycle are transferred is the model's choice (log 21), as is that it is so in a cycle with `rst = 1` too (log 18); that
a flush request stays until taken is DEDUCED (log 25). -/
def Obligations.OffersAreTakenExactlyAtTheHandshake : Prop :=
  ∀ s t c : State, c = cycle s → step s = .next t →
    t.host.flushPin = (c.host.flushPin && !flushAck c) ∧
    t.host.rxPin = (if rxReady c = true then none else c.host.rxPin) ∧
    t.host.cmdPin = (if cmdReady c = true then none else c.host.cmdPin) ∧
    t.host.flushIn = c.host.flushIn ∧ t.host.rxIn = c.host.rxIn ∧ t.host.cmdIn = c.host.cmdIn ∧
    t.host.issued = c.host.issued ∧
    (flushAck c = true ↔ c.ph = .q ∧ c.host.flushPin = true) ∧
    (rxReady c = true ↔ c.ph = .q ∧ c.host.flushPin = false) ∧
    (cmdReady c = true ↔ c.txOut = []) ∧
    (c.ph ≠ .q → t.host.flushPin = c.host.flushPin ∧ t.host.rxPin = c.host.rxPin)

/-- R142: FRS.GUARD discards the oldest excess over `BUF_BOUND`, in every state, and nothing else changes; on the buffers FEED.B
reaches (at most 262 bytes) under a legal bound it discards nothing. -/
def Obligations.GuardDiscardsTheOldestExcess : Prop :=
  (∀ s : State, s.cfg.bufBound < s.buf.length →
    exec .frsGuard s = .next { s with buf := s.buf.drop (s.buf.length - s.cfg.bufBound) }) ∧
  (∀ s : State, s.buf.length ≤ s.cfg.bufBound → exec .frsGuard s = .next s) ∧
  (∀ (s : State) (b : Byte), s.cfg.wf = true → s.buf.length ≤ 261 →
    guardBuf s.cfg.bufBound (s.buf ++ [b]) = s.buf ++ [b])

/-! ## Unit FRS: micro-steps -/

/-- R143: FRS.S1 in every state: no 0xF7, the buffer is cleared and the loop stops; otherwise `i` is the least index holding 0xF7
and `ph <- S2`. -/
def Obligations.SyncSearchFindsTheFirstSyncByte : Prop :=
  ∀ s : State,
    ((∀ b ∈ s.buf, b ≠ 0xF7) → exec .frsS1 s = .next { s with i := none, buf := [], ph := .q }) ∧
    (∀ k : Nat, s.buf[k]? = some 0xF7 → (∀ j < k, s.buf[j]? ≠ some 0xF7) →
      exec .frsS1 s = .next { s with i := some k, ph := .s2 })

/-- R144: FRS.S2 drops the `i` bytes before the sync byte; afterwards `buf[0] = 0xF7`, and none of the dropped bytes is 0xF7, when
`i` is what FRS.S1 found. -/
def Obligations.BytesBeforeTheSyncByteAreDropped : Prop :=
  (∀ (s : State) (k : Nat), s.i = some k → k ≤ s.buf.length →
    exec .frsS2 s = .next { s with buf := s.buf.drop k, ph := .s3 }) ∧
  (∀ (buf : Bytes) (k : Nat), find SYNC buf = some k →
    k < buf.length ∧ (buf.drop k)[0]? = some 0xF7 ∧ ∀ b ∈ buf.take k, b ≠ 0xF7)

/-- R145, R146, R147: FRS.S3 stops on fewer than 5 bytes and FRS.S5 on fewer than `L`, the buffer unchanged; otherwise each goes
on. Between them FRS.S4 loads `d` from offset 4 and `L = d + 7`, which is at least 7 and at most 262; no value of `d` is rejected. -/
def Obligations.HeaderLengthAndCandidateSteps : Prop :=
  ∀ s : State,
    (s.buf.length < 5 → exec .frsS3 s = .next { s with ph := .q }) ∧
    (5 ≤ s.buf.length → exec .frsS3 s = .next { s with ph := .s4 }) ∧
    (∀ v : Byte, s.buf[4]? = some v →
      exec .frsS4 s = .next { s with d := v, L := v.toNat + 7, ph := .s5 } ∧ 7 ≤ v.toNat + 7 ∧ v.toNat + 7 ≤ 262) ∧
    (s.buf.length < s.L → exec .frsS5 s = .next { s with ph := .q }) ∧
    (s.L ≤ s.buf.length → exec .frsS5 s = .next { s with ph := .s6 })

/-- R148, R129: FRS.S6 on a candidate `F = buf[0 ..< L]`: valid, `F` is emitted (offered on the frame port, handed to DEC), the latches
`dev`, `sub`, `cmd` are loaded and `L` bytes removed; not valid, exactly the first byte is removed and nothing is emitted; either
way `ph <- S1`. Where the frame waits and what a ready consumer takes is the model's choice (log 7, 10); that the accumulators hold
after it what CHK.VALIDATE's pass left is DEDUCED from R129 (log 13). -/
def Obligations.CandidateIsEmittedOrOneByteIsDropped : Prop :=
  ∀ (s : State) (f : Bytes), 7 ≤ s.L → s.L ≤ s.buf.length → f = s.buf.take s.L →
    (valid f = true →
      exec .frsS6 s = .next { s with
        buf := s.buf.drop s.L, ph := .s1, dev := f.getD 1 0, sub := f.getD 2 0, cmd := f.getD 3 0,
        xacc := xorOf (f.take (s.L - 2)), aacc := addOf (f.take (s.L - 1)),
        emitted := s.emitted ++ [f], decSlot := some f,
        frmTaken := if s.host.levels.frmReady then s.frmTaken ++ (s.frmOut ++ frameBeats f) else s.frmTaken,
        frmOut := if s.host.levels.frmReady then [] else s.frmOut ++ frameBeats f }) ∧
    (valid f = false →
      exec .frsS6 s = .next { s with
        buf := s.buf.drop 1, ph := .s1, xacc := xorOf (f.take (s.L - 2)), aacc := addOf (f.take (s.L - 1)) })

/-- The model's choice where R17's primitives are not defined (log 14), resting on R17, R32: the micro-steps that read or remove
bytes stop, by name, where the bytes do not exist; R155 reaches none of these states (the statement of the invariant). -/
def Obligations.MicroStepsStopBeyondTheBuffer : Prop :=
  ∀ s : State,
    (s.i = none → exec .frsS2 s = .fault .noSyncIndex) ∧
    (∀ k, s.i = some k → s.buf.length < k → exec .frsS2 s = .fault .beyondBuffer) ∧
    (s.buf.length < 5 → exec .frsS4 s = .fault .beyondBuffer) ∧
    (s.buf.length < s.L → exec .frsS6 s = .fault .beyondBuffer)

/-- R155: under the invariant, the micro-step of each phase answers a next state with the phase and the buffer of the table of
transfers; there are no other transfers, and a frame is emitted in the row of S6 with a valid candidate and in no other. -/
def Obligations.PhaseTransitionsAreTheTable : Prop :=
  ∀ s : State, Inv s → s.ph ≠ .q → ∃ t : State, microStep s = some (.next t) ∧
    ((s.ph = .s1 ∧ 0xF7 ∉ s.buf ∧ t.ph = .q ∧ t.buf = [] ∧ t.emitted = s.emitted) ∨
     (s.ph = .s1 ∧ 0xF7 ∈ s.buf ∧ t.ph = .s2 ∧ t.buf = s.buf ∧ t.emitted = s.emitted) ∨
     (s.ph = .s2 ∧ t.ph = .s3 ∧ ∃ k, s.i = some k ∧ t.buf = s.buf.drop k ∧ t.emitted = s.emitted) ∨
     (s.ph = .s3 ∧ s.buf.length < 5 ∧ t.ph = .q ∧ t.buf = s.buf ∧ t.emitted = s.emitted) ∨
     (s.ph = .s3 ∧ 5 ≤ s.buf.length ∧ t.ph = .s4 ∧ t.buf = s.buf ∧ t.emitted = s.emitted) ∨
     (s.ph = .s4 ∧ t.ph = .s5 ∧ t.buf = s.buf ∧ t.emitted = s.emitted) ∨
     (s.ph = .s5 ∧ s.buf.length < s.L ∧ t.ph = .q ∧ t.buf = s.buf ∧ t.emitted = s.emitted) ∨
     (s.ph = .s5 ∧ s.L ≤ s.buf.length ∧ t.ph = .s6 ∧ t.buf = s.buf ∧ t.emitted = s.emitted) ∨
     (s.ph = .s6 ∧ valid (s.buf.take s.L) = true ∧ t.ph = .s1 ∧ t.buf = s.buf.drop s.L ∧
       t.emitted = s.emitted ++ [s.buf.take s.L]) ∨
     (s.ph = .s6 ∧ valid (s.buf.take s.L) = false ∧ t.ph = .s1 ∧ t.buf = s.buf.drop 1 ∧ t.emitted = s.emitted))

/-! ## Unit FRS: the loop and the stream -/

/-- R149: `extract` satisfies the recursion of the rule, pass by pass. -/
def Obligations.ExtractSatisfiesItsRecursion : Prop :=
  ∀ s : Bytes,
    extract s =
      match find SYNC s with
      | none => ([], [])
      | some i =>
        let b := s.drop i
        if b.length < 5 then (b, [])
        else
          let l := (b.getD 4 0).toNat + 7
          if b.length < l then (b, [])
          else if valid (b.take l) = true then ((extract (b.drop l)).1, b.take l :: (extract (b.drop l)).2)
          else extract (b.drop 1)

/-- R158, R159: a buffer is left as it is by the loop exactly in three cases; what the loop leaves is always such a buffer; such a
buffer has at most 261 bytes, and no state of the invariant holds more than 262. -/
def Obligations.QuiescentBuffersAreTheThreeCases : Prop :=
  (∀ s : Bytes, extract s = (s, []) ↔
    (s = [] ∨ (s[0]? = some 0xF7 ∧ s.length < 5) ∨
      (s[0]? = some 0xF7 ∧ 5 ≤ s.length ∧ s.length < (s.getD 4 0).toNat + 7))) ∧
  (∀ s : Bytes, extract (extract s).1 = ((extract s).1, [])) ∧
  (∀ s : Bytes, extract s = (s, []) → s.length ≤ 261) ∧
  (∀ s : State, Inv s → s.buf.length ≤ 262 ∧ (s.ph = .q → s.buf.length ≤ 261))

/-- R161: chunking does not matter. -/
def Obligations.ChunkingDoesNotMatter : Prop :=
  ∀ (s c1 c2 s1 s2 : Bytes) (f1 f2 : List Bytes), extract s = (s, []) →
    extract (s ++ c1) = (s1, f1) → extract (s1 ++ c2) = (s2, f2) →
    extract (s ++ c1 ++ c2) = (s2, f1 ++ f2)

/-- R152 with R161: FEED of a chunk, byte by byte, equals `extract(buf ++ c)`, the source's "appends bytes, then repeatedly tries to
extract frames", while the consumers are ready. A byte is fed only at `ph = Q` (R141, R29) and behind every receive operation issued
before it (R58, R297): where one of those waits, or `rst = 1` stands, FEED answers with its bytes issued (the model's choice, log 9). In every state FEED
of two chunks one after the other is FEED of the whole (R99). -/
def Obligations.FeedChunkExtractsTheWholeChunk : Prop :=
  (∀ (s : State) (c buf' : Bytes) (frames : List Bytes), s.cfg.wf = true → rxIdle s → rxFree s = true →
    quiescent s.buf = true → rxConsumersReady s → extract (s.buf ++ c) = (buf', frames) →
    ∃ t : State, feedChunk c s = .next t ∧ rxIdle t ∧ t.buf = buf' ∧ t.emitted = s.emitted ++ frames ∧
      t.pushed = s.pushed ++ frames.flatMap (statesOf s.cfg) ∧ t.host = s.host ∧
      consumed s c.length t = s.buf.length + c.length - buf'.length) ∧
  (∀ (s : State) (c : Bytes), rxFree s = false →
    feedChunk c s = .next { s with host := { s.host with issued := s.host.issued ++ c.map .byte } }) ∧
  (∀ (s : State) (b : Byte), rxFree s = true → feedChunk [b] s = exec (.frsFeedB b) s) ∧
  (∀ (s : State) (c1 c2 : Bytes), feedChunk (c1 ++ c2) s = andThen (feedChunk c1 s) (feedChunk c2)) ∧
  (∀ s : State, feedChunk [] s = .next s)

/-- R162: every frame the loop emits satisfies the Frame invariant of R82. -/
def Obligations.EmittedFramesAreWellFormed : Prop :=
  ∀ (s f : Bytes), f ∈ (extract s).2 →
    7 ≤ f.length ∧ f[0]? = some 0xF7 ∧ f.length = (f.getD 4 0).toNat + 7 ∧ valid f = true ∧ wellFormedFrame f = true

/-- R163: noise without 0xF7 before a well-formed frame is discarded and the frame is emitted, the whole stream consumed. -/
def Obligations.FrameIsFoundAfterNoise : Prop :=
  ∀ (s : State) (n w : Bytes), s.cfg.wf = true → rxIdle s → rxFree s = true → s.buf = [] → rxConsumersReady s →
    (∀ b ∈ n, b ≠ 0xF7) → wellFormedFrame w = true →
    ∃ t : State, feedChunk (n ++ w) s = .next t ∧ t.buf = [] ∧ t.emitted = s.emitted ++ [w] ∧
      consumed s (n ++ w).length t = n.length + w.length

/-- R164: a well-formed frame split in two is emitted after the second part and not after the first. -/
def Obligations.SplitFrameIsEmittedAfterTheSecondPart : Prop :=
  ∀ (s : State) (a b : Bytes), s.cfg.wf = true → rxIdle s → rxFree s = true → s.buf = [] → rxConsumersReady s →
    a ≠ [] → b ≠ [] → wellFormedFrame (a ++ b) = true →
    ∃ t u : State, feedChunk a s = .next t ∧ t.buf = a ∧ t.emitted = s.emitted ∧
      feedChunk b t = .next u ∧ u.buf = [] ∧ u.emitted = s.emitted ++ [a ++ b]

/-- R302's worst case: behind the false sync `F7 00 00 00 FF` nothing is emitted until 262 bytes have been fed in all. -/
def Obligations.FalseSyncHoldsFramesBack : Prop :=
  ∀ rest : Bytes, rest.length ≤ 256 →
    extract ([0xF7, 0x00, 0x00, 0x00, 0xFF] ++ rest) = ([0xF7, 0x00, 0x00, 0x00, 0xFF] ++ rest, [])

/-- R22, R31, R13: the ring buffer's append, discard and clear do to the stored buffer what the architectural operations do to `buf`,
as long as there is room, and keep the ring legal; there is room for every byte FEED.B appends to at most 261. After a clear the
head index and the RAM contents are unspecified (R31): it holds for all of them (log 24). -/
def Obligations.RingBufferRealisesTheBuffer : Prop :=
  ∀ r : Ring, ringOk r = true →
    262 ≤ r.ram.length ∧ (ringBuf r).length = r.cnt ∧
    ((ringBuf r).length ≤ 261 → r.cnt < r.ram.length) ∧
    (∀ b, r.cnt < r.ram.length → ringBuf (ringAppend r b) = ringBuf r ++ [b] ∧ ringOk (ringAppend r b) = true) ∧
    (∀ n, n ≤ r.cnt → ringBuf (ringDrop n r) = (ringBuf r).drop n ∧ ringOk (ringDrop n r) = true) ∧
    (∀ (hd : Nat) (ram : Bytes), ram.length = r.ram.length → hd < ram.length →
      ringBuf (ringClear hd ram) = [] ∧ ringOk (ringClear hd ram) = true)

/-! ## Unit DEC -/

/-- R180, R92: the row an emitted frame selects: for each class `(DEV_ID[c], CMD_STATUS)` its decoder, every other pair
DEC.IGNORE, with the frame's data region as operand. -/
def Obligations.DecodersAreSelectedByDeviceAndCommand : Prop :=
  ∀ (c : Cfg) (f : Bytes), c.wf = true → wellFormedFrame f = true →
    let data := (f.drop 5).take (f.getD 4 0).toNat
    (f.getD 3 0 = c.cmdStatus → f.getD 1 0 = c.devId.light → decode c (.frame f) = .ok (.decLight (f.getD 2 0) data)) ∧
    (f.getD 3 0 = c.cmdStatus → f.getD 1 0 = c.devId.thermostat → decode c (.frame f) = .ok (.decThermo (f.getD 2 0) data)) ∧
    (f.getD 3 0 = c.cmdStatus → f.getD 1 0 = c.devId.ventilation → decode c (.frame f) = .ok (.decVent (f.getD 2 0) data)) ∧
    (f.getD 3 0 = c.cmdStatus → f.getD 1 0 = c.devId.gasValve → decode c (.frame f) = .ok (.decGas (f.getD 2 0) data)) ∧
    (f.getD 3 0 = c.cmdStatus → f.getD 1 0 = c.devId.elevator → decode c (.frame f) = .ok (.decElev (f.getD 2 0) data)) ∧
    ((f.getD 3 0 ≠ c.cmdStatus ∨ f.getD 1 0 ∉ c.deviceIds) →
      decode c (.frame f) = .ok (.decIgnore (f.getD 1 0) (f.getD 2 0) (f.getD 3 0) data))

/-- R17 `push`, R95, R100, R191: what pushing a list of DeviceStates does: they are offered on the state port as words in order,
taken at once by a ready consumer (the model's choice, log 10), and nothing else changes. -/
def Obligations.PushedStatesGoToTheStatePort : Prop :=
  ∀ (sts : List DeviceState) (s : State),
    pushStates sts s = { s with
      pushed := s.pushed ++ sts,
      stTaken := if s.host.levels.stReady then s.stTaken ++ (s.stOut ++ sts.map dsw) else s.stTaken,
      stOut := if s.host.levels.stReady then [] else s.stOut ++ sts.map dsw }

/-- R181: DEC.LIGHT pushes one state per zone byte, zone `k` for `data[k]`, on exactly when the byte is 0x01; nothing when
`d <= 1`; `data[0]` and the sub id are not read. -/
def Obligations.LightStatusGivesOneStatePerZone : Prop :=
  ∀ (sub : Byte) (data : Bytes) (s : State), ∃ sts : List DeviceState,
    exec (.decLight sub data) s = .next (pushStates sts s) ∧
    sts.length = data.length - 1 ∧
    ∀ (k : Nat) (b : Byte), 1 ≤ k → data[k]? = some b →
      sts[k - 1]? = some { key := { cls := .light, zone := k }, value := .flag (decide (b = 0x01)) }

/-- R182: DEC.THERMO pushes, in ascending zone order, the populated zones of the first `min(floor((d - 5) / 2), 8)` pairs, with the
mask bits of R88 and the temperatures in the order of `TEMP_ORDER`. -/
def Obligations.ThermostatStatusGivesThePopulatedZones : Prop :=
  ∀ (sub : Byte) (data : Bytes) (s : State),
    let n := if data.length < 5 then 0 else min ((data.length - 5) / 2) 8
    let p := fun z : Nat => data.getD (5 + 2 * (z - 1)) 0
    let q := fun z : Nat => data.getD (6 + 2 * (z - 1)) 0
    let hvac := fun z : Nat => if (data.getD 1 0).toNat.testBit (z - 1) then Hvac.heat else Hvac.off
    let preset := fun z : Nat => if (data.getD 2 0).toNat.testBit (z - 1) then ThPreset.away else ThPreset.none
    exec (.decThermo sub data) s = .next (pushStates
      (((List.range' 1 n).filter fun z => !(p z == 0x00 && q z == 0x00)).map fun z =>
        { key := { cls := .thermostat, zone := z },
          value := match s.cfg.tempOrder with
            | .firstCurrent => .thermo (hvac z) (preset z) (parseTempH (p z)) (parseTempH (q z))
            | .firstTarget => .thermo (hvac z) (preset z) (parseTempH (q z)) (parseTempH (p z)) }) s)

/-- R184, R185, R189: DEC.VENT pushes nothing for `d < 3`, otherwise one state of zone 1: on exactly when `data[1]` is nonzero, the
percentage and preset by the sentinel (tested first, only with `LEVEL3_AUTO` and `d >= 4`) and the mode code. -/
def Obligations.VentilationStatusFollowsTheModeTable : Prop :=
  ∀ (sub : Byte) (data : Bytes) (s : State), s.cfg.wf = true →
    (data.length < 3 → exec (.decVent sub data) s = .next (pushStates [] s)) ∧
    (3 ≤ data.length → ∃ (pct : Nat) (preset : VentPreset),
      exec (.decVent sub data) s = .next (pushStates
        [{ key := { cls := .ventilation, zone := 1 }, value := .vent (decide (data.getD 1 0 ≠ 0x00)) pct preset }] s) ∧
      (s.cfg.ventTable = .level3Auto ∧ data[3]? = some 0x04 → pct = 50 ∧ preset = .auto) ∧
      (¬(s.cfg.ventTable = .level3Auto ∧ data[3]? = some 0x04) →
        (data.getD 2 0 = s.cfg.ventLow → pct = 33 ∧ preset = .low) ∧
        (data.getD 2 0 = s.cfg.ventMed → pct = 66 ∧ preset = .medium) ∧
        (data.getD 2 0 = s.cfg.ventHigh → pct = 100 ∧ preset = .high) ∧
        (data.getD 2 0 ∉ [s.cfg.ventLow, s.cfg.ventMed, s.cfg.ventHigh] → pct = 0 ∧ preset = .none)))

/-- R186, R187, R188: DEC.GAS and DEC.ELEV push nothing for `d < 2`, otherwise one boolean of zone 1, true exactly for 0x04 and
0x44; DEC.IGNORE pushes nothing and leaves the state as it is while no state word waits. -/
def Obligations.GasElevatorAndUnknownFrames : Prop :=
  (∀ (sub : Byte) (data : Bytes) (s : State), data.length < 2 →
    exec (.decGas sub data) s = .next (pushStates [] s) ∧ exec (.decElev sub data) s = .next (pushStates [] s)) ∧
  (∀ (sub : Byte) (data : Bytes) (s : State) (b : Byte), data[1]? = some b →
    exec (.decGas sub data) s =
      .next (pushStates [{ key := { cls := .gasValve, zone := 1 }, value := .flag (decide (b = 0x04)) }] s) ∧
    exec (.decElev sub data) s =
      .next (pushStates [{ key := { cls := .elevator, zone := 1 }, value := .flag (decide (b = 0x44)) }] s)) ∧
  (∀ (dev sub cmd : Byte) (data : Bytes) (s : State), exec (.decIgnore dev sub cmd data) s = .next (pushStates [] s)) ∧
  (∀ s : State, s.stOut = [] → pushStates [] s = s)

/-- R180, R192: what DEC does inside FRS.FEED.B with a well-formed frame is the operation the frame selects, and pushes the list
`statesOf`; that list has at most 254 states (Light), 8 (Thermostat), 1 (the other three), 0 (ignored). -/
def Obligations.DecodersAreTotalAndBounded : Prop :=
  ∀ (c : Cfg) (f : Bytes) (s : State), wellFormedFrame f = true → s.cfg = c →
    (∃ i : Instr, decode c (.frame f) = .ok i) ∧
    (∀ i : Instr, decode c (.frame f) = .ok i →
      exec i s = .next (pushStates (statesOf c f) s) ∧ decodeEmitted f s = exec i s) ∧
    decodeEmitted f s = .next (pushStates (statesOf c f) s) ∧
    (match decodeKey c (f.getD 1 0) (f.getD 3 0) with
      | some .light => (statesOf c f).length ≤ 254
      | some .thermostat => (statesOf c f).length ≤ 8
      | some _ => (statesOf c f).length ≤ 1
      | none => statesOf c f = [])

/-- R183, R87, R216: `parseTempH` is twice the whole degrees plus the half-degree bit, a bijection, zero exactly at 0x00; encoding
then decoding truncates to half degrees, decoding then encoding gives the byte back; the spec's examples. -/
def Obligations.TemperatureCodingsAreInverse : Prop :=
  (∀ b : Byte, (parseTempH b).toNat = 2 * (b.toNat % 128) + b.toNat / 128) ∧
  Function.Bijective parseTempH ∧
  (∀ b : Byte, parseTempH b = 0 ↔ b = 0x00) ∧
  (∀ arg : BitVec 16, arg.toNat < 2 ^ 15 →
    (parseTempH (encodeTemp arg)).toNat = 2 * (arg.toNat / 256) + arg.toNat / 128 % 2) ∧
  (∀ b : Byte, encodeTemp (BitVec.ofNat 16 ((parseTempH b).toNat * 128)) = b) ∧
  encodeTemp 0x1780 = 0x97 ∧ encodeTemp 0x1500 = 0x15 ∧ encodeTemp 0x0000 = 0x00 ∧ encodeTemp 0x7F80 = 0xFF ∧
  encodeTemp 0x1740 = 0x17 ∧ parseTempH 0x80 = 1 ∧ parseTempH 0x95 = 43 ∧ parseTempH 0x18 = 48 ∧ parseTempH 0x7F = 254 ∧ parseTempH 0xFF = 255

/-- R95: the fields of the device-state word, for every state DEC can push (zone and percentage within their fields), and the
codes those fields hold. -/
def Obligations.DeviceStateWordFields : Prop :=
  [DeviceClass.light, .thermostat, .ventilation, .gasValve, .elevator].map classTag = [0, 1, 2, 3, 4] ∧
  [Hvac.off, .heat].map hvacBit = [0, 1] ∧ [ThPreset.none, .away].map thPresetBit = [0, 1] ∧
  [VentPreset.none, .low, .medium, .high, .auto].map ventPresetCode = [0, 1, 2, 3, 4] ∧
  ∀ (cls : DeviceClass) (zone : Nat) (v : DeviceValue), zone < 256 →
    let w := (dsw { key := { cls := cls, zone := zone }, value := v }).toNat
    w / 2 ^ 29 = (classTag cls).toNat ∧ w / 2 ^ 21 % 256 = zone ∧ w / 2 ^ 18 % 8 = 0 ∧
    (match v with
      | .flag b => w % 2 ^ 18 = b.toNat
      | .thermo hvac preset cur tgt =>
        w % 2 = (hvacBit hvac).toNat ∧ w / 2 % 2 = (thPresetBit preset).toNat ∧ w / 4 % 256 = cur.toNat ∧
        w / 2 ^ 10 % 256 = tgt.toNat
      | .vent isOn pct preset =>
        pct < 128 → w % 2 = isOn.toNat ∧ w / 2 % 128 = pct ∧ w / 2 ^ 8 % 8 = (ventPresetCode preset).toNat ∧
        w / 2 ^ 11 % 128 = 0)

/-- R100, R245: a frame goes out in index order, `sof` with the first byte, `eof` with the last, on both byte ports. -/
def Obligations.FrameBytesGoOutInIndexOrder : Prop :=
  ∀ f : Bytes,
    (frameBeats f).map FrmBeat.data = f ∧ (txBeats f).map TxBeat.data = f ∧
    (∀ (k : Nat) (b : FrmBeat), (frameBeats f)[k]? = some b → (b.sof = true ↔ k = 0) ∧ (b.eof = true ↔ k + 1 = f.length)) ∧
    (∀ (k : Nat) (b : TxBeat), (txBeats f)[k]? = some b → (b.eof = true ↔ k + 1 = f.length))

/-! ## Units ENC and BLD, and TX.CMD -/

/-- R213, R218, R90, with R210 and R211 for the device id and the sub-address: the two ON/OFF rows, on a zone whose sub-address fits a
byte: the inputs of BLD.BUILD, the argument and the reserved bits ignored; nothing but the returned value changes. That a row as an
operation begins at the zone test and returns the four inputs is the model's choice (log 17, 22). -/
def Obligations.OnOffRowsReturnTheirPayload : Prop :=
  ∀ (s : State) (on : Bool) (rsv : BitVec 2) (zone : Byte) (arg : BitVec 16), zone ≠ 0 →
    (s.cfg.subBase.light.toNat + zone.toNat ≤ 255 →
      exec (.encLightSet on rsv zone arg) s = .next { s with ret := .args {
        dev := s.cfg.devId.light, sub := s.cfg.subBase.light + zone, cmd := s.cfg.cmdLightSet,
        payload := [0x01, if on then 0x01 else 0x00] } }) ∧
    (s.cfg.subBase.ventilation.toNat + zone.toNat ≤ 255 →
      exec (.encVentPower on rsv zone arg) s = .next { s with ret := .args {
        dev := s.cfg.devId.ventilation, sub := s.cfg.subBase.ventilation + zone, cmd := s.cfg.cmdVentPower,
        payload := [0x01, if on then 0x01 else 0x00] } })

/-- R214, R215, R217, R216, with R210 and R211 for the device id and the sub-address: the three Thermostat rows on a zone whose
sub-address fits a byte: `arg[0]` chooses 0x01 or 0x00; a temperature below 128 is encoded as `128 * arg[7] + arg[14:8]`, one of 128
or more is refused BAD_ARG. That a row as an operation begins at the zone test and returns the four inputs is the model's choice
(log 17, 22). -/
def Obligations.ThermostatRowsReturnTheirPayload : Prop :=
  ∀ (s : State) (rsv : BitVec 2) (zone : Byte) (arg : BitVec 16), zone ≠ 0 →
    s.cfg.subBase.thermostat.toNat + zone.toNat ≤ 255 →
    exec (.encThMode rsv zone arg) s = .next { s with ret := .args {
      dev := s.cfg.devId.thermostat, sub := s.cfg.subBase.thermostat + zone, cmd := s.cfg.cmdThMode,
      payload := [0x01, if arg.toNat % 2 = 1 then 0x01 else 0x00] } } ∧
    exec (.encThAway rsv zone arg) s = .next { s with ret := .args {
      dev := s.cfg.devId.thermostat, sub := s.cfg.subBase.thermostat + zone, cmd := s.cfg.cmdThAway,
      payload := [0x01, if arg.toNat % 2 = 1 then 0x01 else 0x00] } } ∧
    (arg.toNat < 2 ^ 15 → exec (.encThTemp rsv zone arg) s = .next { s with ret := .args {
      dev := s.cfg.devId.thermostat, sub := s.cfg.subBase.thermostat + zone, cmd := s.cfg.cmdThTemp,
      payload := [0x01, BitVec.ofNat 8 (128 * (arg.toNat / 128 % 2) + arg.toNat / 256)] } }) ∧
    (2 ^ 15 ≤ arg.toNat → exec (.encThTemp rsv zone arg) s = .next { s with ret := .refused .badArg })

/-- R219, R220, with R210 and R211 for the device id and the sub-address: ENC.VENT.SPEED on a zone whose sub-address fits a byte: the
mode code by the thresholds, 50 per cent the auto code only with `LEVEL3_AUTO`; an argument above 100 is refused BAD_ARG. And R220's
matching: each percentage the decode table can report encodes back to the code it came from. That a row as an operation begins at
the zone test and returns the four inputs is the model's choice (log 17, 22). -/
def Obligations.VentilationSpeedFollowsTheThresholds : Prop :=
  (∀ (s : State) (rsv : BitVec 2) (zone : Byte) (arg : BitVec 16), zone ≠ 0 →
    s.cfg.subBase.ventilation.toNat + zone.toNat ≤ 255 →
    (100 < arg.toNat → exec (.encVentSpeed rsv zone arg) s = .next { s with ret := .refused .badArg }) ∧
    (arg.toNat ≤ 100 → ∃ code : Byte,
      exec (.encVentSpeed rsv zone arg) s = .next { s with ret := .args {
        dev := s.cfg.devId.ventilation, sub := s.cfg.subBase.ventilation + zone, cmd := s.cfg.cmdVentSpeed,
        payload := [0x01, code] } } ∧
      (arg.toNat = 50 ∧ s.cfg.ventTable = .level3Auto → code = s.cfg.ventAuto) ∧
      (¬(arg.toNat = 50 ∧ s.cfg.ventTable = .level3Auto) →
        (arg.toNat ≤ 33 → code = s.cfg.ventLow) ∧
        (34 ≤ arg.toNat ∧ arg.toNat ≤ 66 → code = s.cfg.ventMed) ∧
        (67 ≤ arg.toNat → code = s.cfg.ventHigh)))) ∧
  (∀ (c : Cfg) (m : Byte), c.wf = true → m ∈ [c.ventLow, c.ventMed, c.ventHigh] →
    ventEncode c (ventDecode c m none).1 = m ∧
    (c.ventTable = .level3Auto → ventEncode c (ventDecode c m (some 0x04)).1 = c.ventAuto))

/-- R221, R222, with R210 and R211 for the device id and the sub-address: ENC.GAS.CLOSE whatever the action and argument, and
ENC.ELEV.CALL, on a zone whose sub-address fits a byte. That a row as an operation begins at the zone test and returns the four
inputs is the model's choice (log 17, 22). -/
def Obligations.GasAndElevatorRowsReturnTheirPayload : Prop :=
  ∀ (s : State) (act : Action) (rsv : BitVec 2) (zone : Byte) (arg : BitVec 16), zone ≠ 0 →
    (s.cfg.subBase.gasValve.toNat + zone.toNat ≤ 255 →
      exec (.encGasClose act rsv zone arg) s = .next { s with ret := .args {
        dev := s.cfg.devId.gasValve, sub := s.cfg.subBase.gasValve + zone, cmd := s.cfg.cmdGasClose,
        payload := [0x01, 0x00] } }) ∧
    (s.cfg.subBase.elevator.toNat + zone.toNat ≤ 255 →
      exec (.encElevCall rsv zone arg) s = .next { s with ret := .args {
        dev := s.cfg.devId.elevator, sub := s.cfg.subBase.elevator + zone, cmd := s.cfg.cmdElevCall,
        payload := [0x01, 0x10] } })

/-- R210, R211, R212: every ENC row refuses zone 0 with BAD_ZONE and a sub-address above 255 with SUB_OVERFLOW, before it looks at
the argument, and changes nothing but the returned value. That a row as an operation makes R210's zone and sub-address tests itself,
and returns its reason without a pulse, is the model's choice (log 17, 22). -/
def Obligations.EncRowsRefuseZoneAndOverflowFirst : Prop :=
  ∀ (s : State) (i : Instr) (w : Word32) (cls : DeviceClass), decodeEnc w = .ok i → classOfTag (crwCls w) = some cls →
    (crwZone w = 0 → exec i s = .next { s with ret := .refused .badZone }) ∧
    (crwZone w ≠ 0 → 255 < (s.cfg.subBase.get cls).toNat + (crwZone w).toNat →
      exec i s = .next { s with ret := .refused .subOverflow })

/-- R241, R242: BLD.BUILD on every operand and state: up to 255 payload bytes, the five-byte header with the length byte, the
payload and the two checksums; more, refused BAD_LENGTH. -/
def Obligations.BuildAssemblesTheFrame : Prop :=
  ∀ (dev sub cmd : Byte) (payload : Bytes) (s : State),
    (payload.length ≤ 255 → ∃ x a : Byte,
      x = xorOf ([0xF7, dev, sub, cmd, BitVec.ofNat 8 payload.length] ++ payload) ∧
      a = addOf ([0xF7, dev, sub, cmd, BitVec.ofNat 8 payload.length] ++ payload ++ [x]) ∧
      exec (.bldBuild dev sub cmd payload) s = .next { s with
        ret := .bytes ([0xF7, dev, sub, cmd, BitVec.ofNat 8 payload.length] ++ payload ++ [x, a]) }) ∧
    (255 < payload.length → exec (.bldBuild dev sub cmd payload) s = .next { s with ret := .refused .badLength })

/-- R243, R244: what BLD.BUILD builds satisfies the Frame invariant and is what the loop emits from it; every frame the loop emits
is one that BLD.BUILD builds from its own fields. -/
def Obligations.BuiltFramesAndEmittedFramesAreTheSame : Prop :=
  (∀ (dev sub cmd : Byte) (payload : Bytes), payload.length ≤ 255 → ∃ f : Bytes,
    buildFrame dev sub cmd payload = .ok f ∧ f.length = payload.length + 7 ∧ wellFormedFrame f = true ∧
    f[1]? = some dev ∧ f[2]? = some sub ∧ f[3]? = some cmd ∧ (f.drop 5).take payload.length = payload ∧
    extract f = ([], [f])) ∧
  (∀ s f : Bytes, f ∈ (extract s).2 →
    buildFrame (f.getD 1 0) (f.getD 2 0) (f.getD 3 0) ((f.drop 5).take (f.length - 7)) = .ok f)

/-- R210, R211, R223, R86, R90: the commands ENC accepts and what TX.CMD delivers for them. The ENC row that each class and action
select; the command `encodeCommand` builds for a word is what the row of that word returns (pinned row by row in the statements on
the ENC rows); TX.CMD on it delivers nine bytes on the tx port, `F7, DEV_ID, sub, command id, 02, 01, data[1]` and the two
checksums, and changes nothing but the transmit side's outputs and the returned value (what a ready host takes at once is the
model's choice, log 10). That exec of a row returns the whole result of R210, the refusals of zone and sub-address included, is the
model's choice (log 17, 22); a word that selects no row, called, returns R210's BAD_CLASS or BAD_ACTION (the call, log 3). -/
def Obligations.TransmitDeliversNineBytes : Prop :=
  (∀ (rsv : BitVec 2) (zone : Byte) (arg : BitVec 16),
    decodeEnc (mkCrw 0 0 rsv zone arg) = .ok (.encLightSet false rsv zone arg) ∧
    decodeEnc (mkCrw 0 1 rsv zone arg) = .ok (.encLightSet true rsv zone arg) ∧
    decodeEnc (mkCrw 1 2 rsv zone arg) = .ok (.encThMode rsv zone arg) ∧
    decodeEnc (mkCrw 1 3 rsv zone arg) = .ok (.encThTemp rsv zone arg) ∧
    decodeEnc (mkCrw 1 4 rsv zone arg) = .ok (.encThAway rsv zone arg) ∧
    decodeEnc (mkCrw 2 0 rsv zone arg) = .ok (.encVentPower false rsv zone arg) ∧
    decodeEnc (mkCrw 2 1 rsv zone arg) = .ok (.encVentPower true rsv zone arg) ∧
    decodeEnc (mkCrw 2 5 rsv zone arg) = .ok (.encVentSpeed rsv zone arg) ∧
    (∀ act : BitVec 3, decodeEnc (mkCrw 3 act rsv zone arg) = .ok (.encGasClose (actionOfTag act) rsv zone arg)) ∧
    decodeEnc (mkCrw 4 6 rsv zone arg) = .ok (.encElevCall rsv zone arg)) ∧
  (∀ (s : State) (w : Word32) (i : Instr), decodeEnc w = .ok i →
    exec i s = .next { s with
      ret := retOfArgs (encodeCommand s.cfg (crwCls w) (actionOfTag (crwAct w)) (crwZone w) (crwArg w)) }) ∧
  (∀ (s : State) (w : Word32) (e : DecodeError), decodeEnc w = .error e →
    noOperation e s = { s with
      ret := retOfArgs (encodeCommand s.cfg (crwCls w) (actionOfTag (crwAct w)) (crwZone w) (crwArg w)) } ∧
    (5 ≤ (crwCls w).toNat → noOperation e s = { s with ret := .refused .badClass }) ∧
    ((crwCls w).toNat < 5 → noOperation e s = { s with ret := .refused .badAction })) ∧
  (∀ (c : Cfg) (w : Word32) (a : BuildArgs),
    encodeCommand c (crwCls w) (actionOfTag (crwAct w)) (crwZone w) (crwArg w) = .ok a → ∃ i : Instr, decodeEnc w = .ok i) ∧
  (∀ (s : State) (cls : BitVec 3) (act : Action) (rsv : BitVec 2) (zone : Byte) (arg : BitVec 16) (a : BuildArgs),
    encodeCommand s.cfg cls act zone arg = .ok a → ∃ (k : DeviceClass) (v : Byte) (f : Bytes),
      classOfTag cls = some k ∧ a.dev = s.cfg.devId.get k ∧ a.sub.toNat = (s.cfg.subBase.get k).toNat + zone.toNat ∧
      a.payload = [0x01, v] ∧ f = gen [0xF7, a.dev, a.sub, a.cmd, 0x02, 0x01, v] ∧ f.length = 9 ∧
      wellFormedFrame f = true ∧
      exec (.txCmd cls act rsv zone arg) s = .next { s with
        cmdRefused := none, ret := .bytes f,
        txTaken := if s.host.levels.txReady then s.txTaken ++ (s.txOut ++ txBeats f) else s.txTaken,
        txOut := if s.host.levels.txReady then [] else s.txOut ++ txBeats f })

/-- R210, R212, R101: the refusals of TX.CMD in their order, for every state and word, with their codes; a refused command produces
no byte and changes nothing but the pulse and the returned value; and the table of R210: its nine `(class, action)` pairs of the
four classes other than GasValve, and every action for GasValve, have a row, every other pair has none. -/
def Obligations.TransmitRefusesInTheOrderOfTheRule : Prop :=
  (∀ (s : State) (cls : BitVec 3) (act : Action) (rsv : BitVec 2) (zone : Byte) (arg : BitVec 16) (r : Reason),
    encodeCommand s.cfg cls act zone arg = .error r →
    exec (.txCmd cls act rsv zone arg) s = .next { s with cmdRefused := some r, ret := .refused r }) ∧
  (∀ (c : Cfg) (cls : BitVec 3) (act : Action) (zone : Byte) (arg : BitVec 16),
    (5 ≤ cls.toNat → encodeCommand c cls act zone arg = .error .badClass) ∧
    (∀ k, classOfTag cls = some k →
      (rowOf c k act arg = none → encodeCommand c cls act zone arg = .error .badAction) ∧
      (∀ row, rowOf c k act arg = some row →
        (zone = 0 → encodeCommand c cls act zone arg = .error .badZone) ∧
        (zone ≠ 0 → 255 < (c.subBase.get k).toNat + zone.toNat → encodeCommand c cls act zone arg = .error .subOverflow) ∧
        (zone ≠ 0 → (c.subBase.get k).toNat + zone.toNat ≤ 255 →
          (∀ r, row = .error r → encodeCommand c cls act zone arg = .error r ∧ r = .badArg) ∧
          (∀ p, row = .ok p → ∃ a, encodeCommand c cls act zone arg = .ok a))))) ∧
  (∀ (c : Cfg) (k : DeviceClass) (act : Action) (arg : BitVec 16), (rowOf c k act arg).isSome = true ↔
    ((k, act) ∈ [(DeviceClass.light, Action.on), (.light, .off), (.thermostat, .hvac), (.thermostat, .temp), (.thermostat, .away),
      (.ventilation, .on), (.ventilation, .off), (.ventilation, .speed), (.elevator, .call)] ∨ k = .gasValve)) ∧
  [Reason.badClass, .badAction, .badZone, .subOverflow, .badArg, .badLength].map reasonCode = [1, 2, 3, 4, 5, 6]

/-- R221: over all states, configurations, zones, actions and arguments, TX.CMD on the GasValve class does one and the same thing for
its zone: it refuses zone 0 and a sub-address above 255, and otherwise delivers on the tx port the beats of one frame, that with the
"close" payload; the action and the argument make no difference (what a ready host takes at once is the model's choice, log 10). -/
def Obligations.GasValveIsOnlyEverClosed : Prop :=
  ∀ (s : State) (act : Action) (rsv : BitVec 2) (zone : Byte) (arg : BitVec 16),
    let f := gen [0xF7, s.cfg.devId.gasValve, s.cfg.subBase.gasValve + zone, s.cfg.cmdGasClose, 0x02, 0x01, 0x00]
    exec (.txCmd 3 act rsv zone arg) s =
      if zone = 0 then .next { s with cmdRefused := some .badZone, ret := .refused .badZone }
      else if 255 < s.cfg.subBase.gasValve.toNat + zone.toNat then
        .next { s with cmdRefused := some .subOverflow, ret := .refused .subOverflow }
      else .next { s with
        cmdRefused := none, ret := .bytes f,
        txTaken := if s.host.levels.txReady then s.txTaken ++ (s.txOut ++ txBeats f) else s.txTaken,
        txOut := if s.host.levels.txReady then [] else s.txOut ++ txBeats f }

/-- R224: where TX.CMD refuses nothing, the beats it adds on the tx port are those of one well-formed frame, nine bytes long with
length byte 2 and first payload byte 1; fed to a BFE with an empty buffer, that frame is emitted unchanged and decoded to nothing. -/
def Obligations.TransmittedFramesLoopBackAndDecodeToNothing : Prop :=
  ∀ (s u : State) (cls : BitVec 3) (act : Action) (rsv : BitVec 2) (zone : Byte) (arg : BitVec 16),
    s.cfg.wf = true → rxIdle s → rxFree s = true → s.buf = [] → rxConsumersReady s →
    exec (.txCmd cls act rsv zone arg) s = .next u → u.cmdRefused = none →
    ∃ f : Bytes, u.txTaken ++ u.txOut = s.txTaken ++ s.txOut ++ txBeats f ∧ u.ret = .bytes f ∧
      wellFormedFrame f = true ∧ f.length = 9 ∧ f[4]? = some 0x02 ∧ f[5]? = some 0x01 ∧
      ∃ t : State, feedChunk f s = .next t ∧ rxIdle t ∧ t.buf = [] ∧ t.emitted = s.emitted ++ [f] ∧ t.pushed = s.pushed

/-- R60: a TX.CMD and a FRS.FEED.B give the same state in either order. -/
def Obligations.TransmitAndReceiveCommute : Prop :=
  ∀ (s t u : State) (cls : BitVec 3) (act : Action) (rsv : BitVec 2) (zone : Byte) (arg : BitVec 16) (b : Byte),
    exec (.txCmd cls act rsv zone arg) s = .next t → exec (.frsFeedB b) t = .next u →
    ∃ v : State, exec (.frsFeedB b) s = .next v ∧ exec (.txCmd cls act rsv zone arg) v = .next u

/-! ## The machine -/

/-- Selection, R96, R19: a step is what the agents select, run one after the other (the order is the model's choice, log 5) after
the cycle at the ports. An agent that selects a word which names the operation `i` runs `exec` of `i` at the state the selection
leaves; one that selects nothing does nothing; a word that names no row has the effect `noOperation` gives it: R210's refusal for a
call of ENC (said in TransmitDeliversNineBytes); for a byte string without the shape of a frame, which FRS never hands over, a list
of no DeviceStates, and for a phase code without a micro-step nothing (DEDUCED, log 15). So where one agent alone selects, the step
is `exec` of its operation, and where none does it is the cycle alone. With `rst = 1` only the reset is selected. The model's
choice, log 8, resting on R293 ("With an ill-formed `CFG` ... this spec defines no behaviour"): out of reset, a configuration that
violates its constraints stops the machine by name. -/
def Obligations.StepRunsTheSelectedOperation : Prop :=
  (∀ (sel : State → Option (OpWord × State)) (s t : State) (o : OpWord), sel s = some (o, t) →
    (∀ i, decode t.cfg o = .ok i → runSelected sel s = exec i t) ∧
    (∀ e, decode t.cfg o = .error e → runSelected sel s = .next (noOperation e t))) ∧
  (∀ (sel : State → Option (OpWord × State)) (s : State), sel s = none → runSelected sel s = .next s) ∧
  (∀ (s : State) (f : Bytes) (e : DecodeError), decode s.cfg (.frame f) = .error e →
    noOperation e s = pushStates [] s ∧ statesOf s.cfg f = [] ∧ decodeEmitted f s = .next (pushStates [] s)) ∧
  (∀ (s : State) (k : BitVec 3) (e : DecodeError), decode s.cfg (.phase k) = .error e → noOperation e s = s) ∧
  ∀ s c : State, c = cycle s →
    (c.host.levels.rst = true → step s = runSelected rstSelect c) ∧
    (c.host.levels.rst = false → c.cfg.wf = false → step s = .fault .illFormedCfg) ∧
    (c.host.levels.rst = false → c.cfg.wf = true →
      step s = andThen (andThen (runSelected callSelect c) (runSelected txSelect)) (runSelected rxSelect) ∧
      (callSelect c = none → txSelect c = none → rxSelect c = none → step s = .next c) ∧
      (∀ o t i, callSelect c = none → txSelect c = none → rxSelect c = some (o, t) → decode t.cfg o = .ok i →
        step s = exec i t) ∧
      (∀ o t i u, callSelect c = none → txSelect c = some (o, t) → decode t.cfg o = .ok i → exec i t = .next u →
        rxSelect u = none → step s = exec i t) ∧
      (∀ o t i u, callSelect c = some (o, t) → decode t.cfg o = .ok i → exec i t = .next u → txSelect u = none →
        rxSelect u = none → step s = exec i t) ∧
      (∀ o t e, callSelect c = some (o, t) → decode t.cfg o = .error e → txSelect (noOperation e t) = none →
        rxSelect (noOperation e t) = none → step s = .next (noOperation e t)))

/-- R100 at the level of transfers: before an operation is selected, the outside agents' next levels and offers stand (an offer not
yet taken is held), the pulse on `cmd_refused` ends, and each port whose consumer is ready and that offers something transfers the
beat it shows; a port whose consumer is not ready holds its beats. Nothing else changes. A receive operation issued by FEED or
CONNECT comes to its port, the oldest first, when neither a byte nor a flush stands there, so that they are taken in the order they
were issued (R58, R297); what the host offers later waits until the last has come to its port (log 9). That a step is a cycle with one beat a port is the
model's choice (log 10, 21), that it is so with `rst = 1` too is log 18, that a flush request is held is log 25. -/
def Obligations.EachReadyPortTransfersItsFirstBeat : Prop :=
  ∀ s : State, let h := nextHost s.host
    cycle s = { s with
      host := h, cmdRefused := none,
      frmTaken := if h.levels.frmReady then s.frmTaken ++ (frmPort s).toList else s.frmTaken,
      frmOut := if h.levels.frmReady then s.frmOut.drop 1 else s.frmOut,
      stTaken := if h.levels.stReady then s.stTaken ++ (stPort s).toList else s.stTaken,
      stOut := if h.levels.stReady then s.stOut.drop 1 else s.stOut,
      txTaken := if h.levels.txReady then s.txTaken ++ (txPort s).toList else s.txTaken,
      txOut := if h.levels.txReady then s.txOut.drop 1 else s.txOut } ∧
    (frmPort s).toList = s.frmOut.take 1 ∧ (stPort s).toList = s.stOut.take 1 ∧ (txPort s).toList = s.txOut.take 1 ∧
    (frmValid s = true ↔ s.frmOut ≠ []) ∧ (stValid s = true ↔ s.stOut ≠ []) ∧ (txValid s = true ↔ s.txOut ≠ []) ∧
    (s.host.flushPin = true → h.flushPin = true ∧ h.flushIn = s.host.flushIn) ∧
    (∀ op ops, s.host.issued = op :: ops →
      h.flushIn = s.host.flushIn ∧ h.rxIn = s.host.rxIn ∧
      (s.host.flushPin = true ∨ s.host.rxPin ≠ none →
        h.issued = s.host.issued ∧ h.flushPin = s.host.flushPin ∧ h.rxPin = s.host.rxPin) ∧
      (s.host.flushPin = false → s.host.rxPin = none → h.issued = ops ∧ h.flushPin = decide (op = .flush) ∧
        h.rxPin = (match op with | .byte b => some b | .flush => none))) ∧
    (∀ b, s.host.rxPin = some b → h.rxPin = some b ∧ h.rxIn = s.host.rxIn) ∧
    (∀ w, s.host.cmdPin = some w → h.cmdPin = some w ∧ h.cmdIn = s.host.cmdIn)

/-- R96, R141, R150, R151, R153, R223, R269: what each selector selects, at the state `c` after the cycle at the ports. `rst = 1`: the
reset, with the offers at ready ports taken and lost (the model's choice, log 18) under the configuration the pins present (log 19).
Otherwise, with no call standing (calls are the model's own, log 3), TX runs an offered command when it delivers no frame, and RX
(after TX in the step, log 5) at `ph = Q` a flush, else a byte, else nothing, and away from `ph = Q` the engine's next action in the
order of R153. -/
def Obligations.SelectorsOfTheOperationMap : Prop :=
  (∀ s c : State, c = cycle s → c.host.levels.rst = true →
    step s = exec .bfeReset { resetTakes c with cfg := c.host.levels.strap.getD c.cfg }) ∧
  (∀ s c : State, c = cycle s → c.cfg.wf = true → c.host.levels.rst = false →
    (∀ u i, c.host.call = some u → decodeUnit u = .ok i →
      step s = andThen (andThen (exec i { c with host := { c.host with call := none } }) (runSelected txSelect))
        (runSelected rxSelect)) ∧
    (∀ u e, c.host.call = some u → decodeUnit u = .error e →
      step s = andThen (runSelected txSelect (noOperation e { c with host := { c.host with call := none } }))
        (runSelected rxSelect)) ∧
    (∀ w, c.host.call = none → c.host.cmdPin = some w → c.txOut = [] →
      step s = andThen
        (exec (.txCmd (crwCls w) (actionOfTag (crwAct w)) (crwRsv w) (crwZone w) (crwArg w))
          { c with host := { c.host with cmdPin := none } })
        (runSelected rxSelect)) ∧
    (c.host.call = none → (c.host.cmdPin = none ∨ c.txOut ≠ []) → step s = runSelected rxSelect c)) ∧
  (∀ c : State, c.ph = .q →
    (c.host.flushPin = true → runSelected rxSelect c = exec .frsFlush { c with host := { c.host with flushPin := false } }) ∧
    (∀ b, c.host.flushPin = false → c.host.rxPin = some b →
      runSelected rxSelect c = exec (.frsFeedB b) { c with host := { c.host with rxPin := none } }) ∧
    (c.host.flushPin = false → c.host.rxPin = none → runSelected rxSelect c = .next c)) ∧
  (∀ c : State, c.ph ≠ .q →
    (c.frmOut ≠ [] → runSelected rxSelect c = .next c) ∧
    (∀ f i, c.frmOut = [] → c.decSlot = some f → decodeFrame c.cfg f = .ok i →
      runSelected rxSelect c = exec i { c with decSlot := none }) ∧
    (∀ f, c.frmOut = [] → c.decSlot = some f → runSelected rxSelect c = decodeEmitted f { c with decSlot := none }) ∧
    (c.frmOut = [] → c.decSlot = none → c.stOut ≠ [] → runSelected rxSelect c = .next c) ∧
    (∀ i, rxOutputsTaken c → decodePhase (phaseCode c.ph) = .ok i → runSelected rxSelect c = exec i c))

/-- R30, R293: no operation changes the configuration, and none changes the outside agents' side of the ports; a step with `rst = 0`
leaves the configuration as it is, and one with `rst = 1` runs BFE.RESET under what the `cfg_*` pins present, or under the standing
configuration where they present nothing new (that the pins are read in that cycle is DEDUCED, log 19; the offers it takes, log 18). -/
def Obligations.ConfigurationChangesOnlyUnderReset : Prop :=
  (∀ (i : Instr) (s t : State), exec i s = .next t → t.cfg = s.cfg ∧ t.host = s.host) ∧
  (∀ s t : State, (cycle s).host.levels.rst = false → step s = .next t → t.cfg = s.cfg) ∧
  (∀ s : State, (cycle s).host.levels.rst = true →
    step s = exec .bfeReset { resetTakes (cycle s) with cfg := (cycle s).host.levels.strap.getD s.cfg } ∧
    ∃ t : State, step s = .next t ∧
      t = { State.resetWith ((cycle s).host.levels.strap.getD s.cfg) with
        frmTaken := (cycle s).frmTaken, stTaken := (cycle s).stTaken, txTaken := (cycle s).txTaken,
        emitted := s.emitted, pushed := s.pushed, host := t.host })

/-- R28, R294: what has left is never recalled: every operation extends the records of emitted frames and pushed states and of what
the consumers have taken. -/
def Obligations.OutputsAreNeverRecalled : Prop :=
  ∀ (i : Instr) (s t : State), exec i s = .next t →
    s.emitted <+: t.emitted ∧ s.pushed <+: t.pushed ∧ s.frmTaken <+: t.frmTaken ∧ s.stTaken <+: t.stTaken ∧
    s.txTaken <+: t.txTaken

/-- R260, R21, R155, R159, R162: from every state of the invariant, whatever the outside agents offer and call, a step answers a next
state, never a fault nor a refusal, and the next state is of the invariant. -/
def Obligations.EveryStepKeepsTheInvariant : Prop :=
  ∀ s : State, Inv s → ∃ t : State, step s = .next t ∧ Inv t

/-- The reset state is of the invariant, for every configuration that meets its constraints (R290, R293). -/
def Obligations.ResetStateIsOfTheInvariant : Prop :=
  ∀ c : Cfg, c.wf = true → Inv (State.resetWith c)

/-- Decoding the selecting word of a well-formed instruction gives it back, under every legal configuration (R81, R94, R96, R97). -/
def Obligations.DecodeOfEncodeIsTheInstruction : Prop :=
  ∀ (c : Cfg) (i : Instr), c.wf = true → wellFormed c i = true → decode c (encode c i) = .ok i

/-- R94, R97, R81: some words written out from the spec's encodings decode to their instructions; which format a bare number stands
for is the model's choice, log 4; the frame header is read under CFG_REF (R12), whose ids 0x33 and 0x81 are the spec's own choice
(log 1). -/
def Obligations.WordsOfTheSpecDecode : Prop :=
  decodeTableWord 8 0b00000110 = some .frsS6 ∧
  decodeTableWord 8 0xF7 = some (.frsFeedB 0xF7) ∧
  decodeTableWord 32 0b00101100000000010001011110000000 = some (.encThTemp 0 1 0x1780) ∧
  decodeTableWord 32 0b01111100000000011111111111111111 = some (.encGasClose .reserved7 0 1 0xFFFF) ∧
  decodeTableWord 32 0xA4010000 = some (.txCmd 5 .on 0 1 0) ∧
  decodeTableWord 40 0xF7331F8102 = some (.decElev 0x1F [0x00, 0x00])

end
end

