-- ==== Sys2Proof/Laws/State.lean ====
section
/-! SUPPORT. One lemma per field per update of `State`, so that no proof unfolds an update (spec/00_scope.md R17's primitives and the
output ports of spec/30_encoding.md R100). -/

namespace Sys2Proof.Machine
-- One theorem at a time: the stacks of many threads together pass the checker's memory limit.
set_option Elab.async false

/-! ## Updates that set fields outright -/

@[simp] theorem stop_cfg (s : State) : (stop s).cfg = s.cfg := rfl
@[simp] theorem stop_buf (s : State) : (stop s).buf = s.buf := rfl
@[simp] theorem stop_ph (s : State) : (stop s).ph = .q := rfl
@[simp] theorem stop_i (s : State) : (stop s).i = s.i := rfl
@[simp] theorem stop_d (s : State) : (stop s).d = s.d := rfl
@[simp] theorem stop_L (s : State) : (stop s).L = s.L := rfl
@[simp] theorem stop_dev (s : State) : (stop s).dev = s.dev := rfl
@[simp] theorem stop_sub (s : State) : (stop s).sub = s.sub := rfl
@[simp] theorem stop_cmd (s : State) : (stop s).cmd = s.cmd := rfl
@[simp] theorem stop_xacc (s : State) : (stop s).xacc = s.xacc := rfl
@[simp] theorem stop_aacc (s : State) : (stop s).aacc = s.aacc := rfl
@[simp] theorem stop_decSlot (s : State) : (stop s).decSlot = s.decSlot := rfl
@[simp] theorem stop_frmOut (s : State) : (stop s).frmOut = s.frmOut := rfl
@[simp] theorem stop_stOut (s : State) : (stop s).stOut = s.stOut := rfl
@[simp] theorem stop_txOut (s : State) : (stop s).txOut = s.txOut := rfl
@[simp] theorem stop_cmdRefused (s : State) : (stop s).cmdRefused = s.cmdRefused := rfl
@[simp] theorem stop_frmTaken (s : State) : (stop s).frmTaken = s.frmTaken := rfl
@[simp] theorem stop_stTaken (s : State) : (stop s).stTaken = s.stTaken := rfl
@[simp] theorem stop_txTaken (s : State) : (stop s).txTaken = s.txTaken := rfl
@[simp] theorem stop_emitted (s : State) : (stop s).emitted = s.emitted := rfl
@[simp] theorem stop_pushed (s : State) : (stop s).pushed = s.pushed := rfl
@[simp] theorem stop_ret (s : State) : (stop s).ret = s.ret := rfl
@[simp] theorem stop_host (s : State) : (stop s).host = s.host := rfl

@[simp] theorem goto_cfg (p : Phase) (s : State) : (goto p s).cfg = s.cfg := rfl
@[simp] theorem goto_buf (p : Phase) (s : State) : (goto p s).buf = s.buf := rfl
@[simp] theorem goto_ph (p : Phase) (s : State) : (goto p s).ph = p := rfl
@[simp] theorem goto_i (p : Phase) (s : State) : (goto p s).i = s.i := rfl
@[simp] theorem goto_d (p : Phase) (s : State) : (goto p s).d = s.d := rfl
@[simp] theorem goto_L (p : Phase) (s : State) : (goto p s).L = s.L := rfl
@[simp] theorem goto_dev (p : Phase) (s : State) : (goto p s).dev = s.dev := rfl
@[simp] theorem goto_sub (p : Phase) (s : State) : (goto p s).sub = s.sub := rfl
@[simp] theorem goto_cmd (p : Phase) (s : State) : (goto p s).cmd = s.cmd := rfl
@[simp] theorem goto_xacc (p : Phase) (s : State) : (goto p s).xacc = s.xacc := rfl
@[simp] theorem goto_aacc (p : Phase) (s : State) : (goto p s).aacc = s.aacc := rfl
@[simp] theorem goto_decSlot (p : Phase) (s : State) : (goto p s).decSlot = s.decSlot := rfl
@[simp] theorem goto_frmOut (p : Phase) (s : State) : (goto p s).frmOut = s.frmOut := rfl
@[simp] theorem goto_stOut (p : Phase) (s : State) : (goto p s).stOut = s.stOut := rfl
@[simp] theorem goto_txOut (p : Phase) (s : State) : (goto p s).txOut = s.txOut := rfl
@[simp] theorem goto_cmdRefused (p : Phase) (s : State) : (goto p s).cmdRefused = s.cmdRefused := rfl
@[simp] theorem goto_frmTaken (p : Phase) (s : State) : (goto p s).frmTaken = s.frmTaken := rfl
@[simp] theorem goto_stTaken (p : Phase) (s : State) : (goto p s).stTaken = s.stTaken := rfl
@[simp] theorem goto_txTaken (p : Phase) (s : State) : (goto p s).txTaken = s.txTaken := rfl
@[simp] theorem goto_emitted (p : Phase) (s : State) : (goto p s).emitted = s.emitted := rfl
@[simp] theorem goto_pushed (p : Phase) (s : State) : (goto p s).pushed = s.pushed := rfl
@[simp] theorem goto_ret (p : Phase) (s : State) : (goto p s).ret = s.ret := rfl
@[simp] theorem goto_host (p : Phase) (s : State) : (goto p s).host = s.host := rfl

@[simp] theorem issue_cfg (ops : List RxOp) (s : State) : (issue ops s).cfg = s.cfg := rfl
@[simp] theorem issue_buf (ops : List RxOp) (s : State) : (issue ops s).buf = s.buf := rfl
@[simp] theorem issue_ph (ops : List RxOp) (s : State) : (issue ops s).ph = s.ph := rfl
@[simp] theorem issue_i (ops : List RxOp) (s : State) : (issue ops s).i = s.i := rfl
@[simp] theorem issue_d (ops : List RxOp) (s : State) : (issue ops s).d = s.d := rfl
@[simp] theorem issue_L (ops : List RxOp) (s : State) : (issue ops s).L = s.L := rfl
@[simp] theorem issue_dev (ops : List RxOp) (s : State) : (issue ops s).dev = s.dev := rfl
@[simp] theorem issue_sub (ops : List RxOp) (s : State) : (issue ops s).sub = s.sub := rfl
@[simp] theorem issue_cmd (ops : List RxOp) (s : State) : (issue ops s).cmd = s.cmd := rfl
@[simp] theorem issue_xacc (ops : List RxOp) (s : State) : (issue ops s).xacc = s.xacc := rfl
@[simp] theorem issue_aacc (ops : List RxOp) (s : State) : (issue ops s).aacc = s.aacc := rfl
@[simp] theorem issue_decSlot (ops : List RxOp) (s : State) : (issue ops s).decSlot = s.decSlot := rfl
@[simp] theorem issue_frmOut (ops : List RxOp) (s : State) : (issue ops s).frmOut = s.frmOut := rfl
@[simp] theorem issue_stOut (ops : List RxOp) (s : State) : (issue ops s).stOut = s.stOut := rfl
@[simp] theorem issue_txOut (ops : List RxOp) (s : State) : (issue ops s).txOut = s.txOut := rfl
@[simp] theorem issue_cmdRefused (ops : List RxOp) (s : State) : (issue ops s).cmdRefused = s.cmdRefused := rfl
@[simp] theorem issue_frmTaken (ops : List RxOp) (s : State) : (issue ops s).frmTaken = s.frmTaken := rfl
@[simp] theorem issue_stTaken (ops : List RxOp) (s : State) : (issue ops s).stTaken = s.stTaken := rfl
@[simp] theorem issue_txTaken (ops : List RxOp) (s : State) : (issue ops s).txTaken = s.txTaken := rfl
@[simp] theorem issue_emitted (ops : List RxOp) (s : State) : (issue ops s).emitted = s.emitted := rfl
@[simp] theorem issue_pushed (ops : List RxOp) (s : State) : (issue ops s).pushed = s.pushed := rfl
@[simp] theorem issue_ret (ops : List RxOp) (s : State) : (issue ops s).ret = s.ret := rfl
@[simp] theorem issue_host (ops : List RxOp) (s : State) :
    (issue ops s).host = { s.host with issued := s.host.issued ++ ops } := rfl

@[simp] theorem setAcc_cfg (x a : Byte) (s : State) : (setAcc x a s).cfg = s.cfg := rfl
@[simp] theorem setAcc_buf (x a : Byte) (s : State) : (setAcc x a s).buf = s.buf := rfl
@[simp] theorem setAcc_ph (x a : Byte) (s : State) : (setAcc x a s).ph = s.ph := rfl
@[simp] theorem setAcc_i (x a : Byte) (s : State) : (setAcc x a s).i = s.i := rfl
@[simp] theorem setAcc_d (x a : Byte) (s : State) : (setAcc x a s).d = s.d := rfl
@[simp] theorem setAcc_L (x a : Byte) (s : State) : (setAcc x a s).L = s.L := rfl
@[simp] theorem setAcc_dev (x a : Byte) (s : State) : (setAcc x a s).dev = s.dev := rfl
@[simp] theorem setAcc_sub (x a : Byte) (s : State) : (setAcc x a s).sub = s.sub := rfl
@[simp] theorem setAcc_cmd (x a : Byte) (s : State) : (setAcc x a s).cmd = s.cmd := rfl
@[simp] theorem setAcc_xacc (x a : Byte) (s : State) : (setAcc x a s).xacc = x := rfl
@[simp] theorem setAcc_aacc (x a : Byte) (s : State) : (setAcc x a s).aacc = a := rfl
@[simp] theorem setAcc_decSlot (x a : Byte) (s : State) : (setAcc x a s).decSlot = s.decSlot := rfl
@[simp] theorem setAcc_frmOut (x a : Byte) (s : State) : (setAcc x a s).frmOut = s.frmOut := rfl
@[simp] theorem setAcc_stOut (x a : Byte) (s : State) : (setAcc x a s).stOut = s.stOut := rfl
@[simp] theorem setAcc_txOut (x a : Byte) (s : State) : (setAcc x a s).txOut = s.txOut := rfl
@[simp] theorem setAcc_cmdRefused (x a : Byte) (s : State) : (setAcc x a s).cmdRefused = s.cmdRefused := rfl
@[simp] theorem setAcc_frmTaken (x a : Byte) (s : State) : (setAcc x a s).frmTaken = s.frmTaken := rfl
@[simp] theorem setAcc_stTaken (x a : Byte) (s : State) : (setAcc x a s).stTaken = s.stTaken := rfl
@[simp] theorem setAcc_txTaken (x a : Byte) (s : State) : (setAcc x a s).txTaken = s.txTaken := rfl
@[simp] theorem setAcc_emitted (x a : Byte) (s : State) : (setAcc x a s).emitted = s.emitted := rfl
@[simp] theorem setAcc_pushed (x a : Byte) (s : State) : (setAcc x a s).pushed = s.pushed := rfl
@[simp] theorem setAcc_ret (x a : Byte) (s : State) : (setAcc x a s).ret = s.ret := rfl
@[simp] theorem setAcc_host (x a : Byte) (s : State) : (setAcc x a s).host = s.host := rfl

@[simp] theorem setRet_cfg (r : Ret) (s : State) : (setRet r s).cfg = s.cfg := rfl
@[simp] theorem setRet_buf (r : Ret) (s : State) : (setRet r s).buf = s.buf := rfl
@[simp] theorem setRet_ph (r : Ret) (s : State) : (setRet r s).ph = s.ph := rfl
@[simp] theorem setRet_i (r : Ret) (s : State) : (setRet r s).i = s.i := rfl
@[simp] theorem setRet_d (r : Ret) (s : State) : (setRet r s).d = s.d := rfl
@[simp] theorem setRet_L (r : Ret) (s : State) : (setRet r s).L = s.L := rfl
@[simp] theorem setRet_dev (r : Ret) (s : State) : (setRet r s).dev = s.dev := rfl
@[simp] theorem setRet_sub (r : Ret) (s : State) : (setRet r s).sub = s.sub := rfl
@[simp] theorem setRet_cmd (r : Ret) (s : State) : (setRet r s).cmd = s.cmd := rfl
@[simp] theorem setRet_xacc (r : Ret) (s : State) : (setRet r s).xacc = s.xacc := rfl
@[simp] theorem setRet_aacc (r : Ret) (s : State) : (setRet r s).aacc = s.aacc := rfl
@[simp] theorem setRet_decSlot (r : Ret) (s : State) : (setRet r s).decSlot = s.decSlot := rfl
@[simp] theorem setRet_frmOut (r : Ret) (s : State) : (setRet r s).frmOut = s.frmOut := rfl
@[simp] theorem setRet_stOut (r : Ret) (s : State) : (setRet r s).stOut = s.stOut := rfl
@[simp] theorem setRet_txOut (r : Ret) (s : State) : (setRet r s).txOut = s.txOut := rfl
@[simp] theorem setRet_cmdRefused (r : Ret) (s : State) : (setRet r s).cmdRefused = s.cmdRefused := rfl
@[simp] theorem setRet_frmTaken (r : Ret) (s : State) : (setRet r s).frmTaken = s.frmTaken := rfl
@[simp] theorem setRet_stTaken (r : Ret) (s : State) : (setRet r s).stTaken = s.stTaken := rfl
@[simp] theorem setRet_txTaken (r : Ret) (s : State) : (setRet r s).txTaken = s.txTaken := rfl
@[simp] theorem setRet_emitted (r : Ret) (s : State) : (setRet r s).emitted = s.emitted := rfl
@[simp] theorem setRet_pushed (r : Ret) (s : State) : (setRet r s).pushed = s.pushed := rfl
@[simp] theorem setRet_ret (r : Ret) (s : State) : (setRet r s).ret = r := rfl
@[simp] theorem setRet_host (r : Ret) (s : State) : (setRet r s).host = s.host := rfl

@[simp] theorem refuse_cfg (r : Reason) (s : State) : (refuse r s).cfg = s.cfg := rfl
@[simp] theorem refuse_buf (r : Reason) (s : State) : (refuse r s).buf = s.buf := rfl
@[simp] theorem refuse_ph (r : Reason) (s : State) : (refuse r s).ph = s.ph := rfl
@[simp] theorem refuse_i (r : Reason) (s : State) : (refuse r s).i = s.i := rfl
@[simp] theorem refuse_d (r : Reason) (s : State) : (refuse r s).d = s.d := rfl
@[simp] theorem refuse_L (r : Reason) (s : State) : (refuse r s).L = s.L := rfl
@[simp] theorem refuse_dev (r : Reason) (s : State) : (refuse r s).dev = s.dev := rfl
@[simp] theorem refuse_sub (r : Reason) (s : State) : (refuse r s).sub = s.sub := rfl
@[simp] theorem refuse_cmd (r : Reason) (s : State) : (refuse r s).cmd = s.cmd := rfl
@[simp] theorem refuse_xacc (r : Reason) (s : State) : (refuse r s).xacc = s.xacc := rfl
@[simp] theorem refuse_aacc (r : Reason) (s : State) : (refuse r s).aacc = s.aacc := rfl
@[simp] theorem refuse_decSlot (r : Reason) (s : State) : (refuse r s).decSlot = s.decSlot := rfl
@[simp] theorem refuse_frmOut (r : Reason) (s : State) : (refuse r s).frmOut = s.frmOut := rfl
@[simp] theorem refuse_stOut (r : Reason) (s : State) : (refuse r s).stOut = s.stOut := rfl
@[simp] theorem refuse_txOut (r : Reason) (s : State) : (refuse r s).txOut = s.txOut := rfl
@[simp] theorem refuse_cmdRefused (r : Reason) (s : State) : (refuse r s).cmdRefused = s.cmdRefused := rfl
@[simp] theorem refuse_frmTaken (r : Reason) (s : State) : (refuse r s).frmTaken = s.frmTaken := rfl
@[simp] theorem refuse_stTaken (r : Reason) (s : State) : (refuse r s).stTaken = s.stTaken := rfl
@[simp] theorem refuse_txTaken (r : Reason) (s : State) : (refuse r s).txTaken = s.txTaken := rfl
@[simp] theorem refuse_emitted (r : Reason) (s : State) : (refuse r s).emitted = s.emitted := rfl
@[simp] theorem refuse_pushed (r : Reason) (s : State) : (refuse r s).pushed = s.pushed := rfl
@[simp] theorem refuse_ret (r : Reason) (s : State) : (refuse r s).ret = .refused r := rfl
@[simp] theorem refuse_host (r : Reason) (s : State) : (refuse r s).host = s.host := rfl

@[simp] theorem pulseRefused_cfg (r : Reason) (s : State) : (pulseRefused r s).cfg = s.cfg := rfl
@[simp] theorem pulseRefused_buf (r : Reason) (s : State) : (pulseRefused r s).buf = s.buf := rfl
@[simp] theorem pulseRefused_ph (r : Reason) (s : State) : (pulseRefused r s).ph = s.ph := rfl
@[simp] theorem pulseRefused_i (r : Reason) (s : State) : (pulseRefused r s).i = s.i := rfl
@[simp] theorem pulseRefused_d (r : Reason) (s : State) : (pulseRefused r s).d = s.d := rfl
@[simp] theorem pulseRefused_L (r : Reason) (s : State) : (pulseRefused r s).L = s.L := rfl
@[simp] theorem pulseRefused_dev (r : Reason) (s : State) : (pulseRefused r s).dev = s.dev := rfl
@[simp] theorem pulseRefused_sub (r : Reason) (s : State) : (pulseRefused r s).sub = s.sub := rfl
@[simp] theorem pulseRefused_cmd (r : Reason) (s : State) : (pulseRefused r s).cmd = s.cmd := rfl
@[simp] theorem pulseRefused_xacc (r : Reason) (s : State) : (pulseRefused r s).xacc = s.xacc := rfl
@[simp] theorem pulseRefused_aacc (r : Reason) (s : State) : (pulseRefused r s).aacc = s.aacc := rfl
@[simp] theorem pulseRefused_decSlot (r : Reason) (s : State) : (pulseRefused r s).decSlot = s.decSlot := rfl
@[simp] theorem pulseRefused_frmOut (r : Reason) (s : State) : (pulseRefused r s).frmOut = s.frmOut := rfl
@[simp] theorem pulseRefused_stOut (r : Reason) (s : State) : (pulseRefused r s).stOut = s.stOut := rfl
@[simp] theorem pulseRefused_txOut (r : Reason) (s : State) : (pulseRefused r s).txOut = s.txOut := rfl
@[simp] theorem pulseRefused_cmdRefused (r : Reason) (s : State) : (pulseRefused r s).cmdRefused = some r := rfl
@[simp] theorem pulseRefused_frmTaken (r : Reason) (s : State) : (pulseRefused r s).frmTaken = s.frmTaken := rfl
@[simp] theorem pulseRefused_stTaken (r : Reason) (s : State) : (pulseRefused r s).stTaken = s.stTaken := rfl
@[simp] theorem pulseRefused_txTaken (r : Reason) (s : State) : (pulseRefused r s).txTaken = s.txTaken := rfl
@[simp] theorem pulseRefused_emitted (r : Reason) (s : State) : (pulseRefused r s).emitted = s.emitted := rfl
@[simp] theorem pulseRefused_pushed (r : Reason) (s : State) : (pulseRefused r s).pushed = s.pushed := rfl
@[simp] theorem pulseRefused_ret (r : Reason) (s : State) : (pulseRefused r s).ret = .refused r := rfl
@[simp] theorem pulseRefused_host (r : Reason) (s : State) : (pulseRefused r s).host = s.host := rfl

@[simp] theorem feedStart_cfg (b : Byte) (s : State) : (feedStart b s).cfg = s.cfg := rfl
@[simp] theorem feedStart_buf (b : Byte) (s : State) : (feedStart b s).buf = guardBuf s.cfg.bufBound (s.buf ++ [b]) := rfl
@[simp] theorem feedStart_ph (b : Byte) (s : State) : (feedStart b s).ph = .s1 := rfl
@[simp] theorem feedStart_i (b : Byte) (s : State) : (feedStart b s).i = s.i := rfl
@[simp] theorem feedStart_d (b : Byte) (s : State) : (feedStart b s).d = s.d := rfl
@[simp] theorem feedStart_L (b : Byte) (s : State) : (feedStart b s).L = s.L := rfl
@[simp] theorem feedStart_dev (b : Byte) (s : State) : (feedStart b s).dev = s.dev := rfl
@[simp] theorem feedStart_sub (b : Byte) (s : State) : (feedStart b s).sub = s.sub := rfl
@[simp] theorem feedStart_cmd (b : Byte) (s : State) : (feedStart b s).cmd = s.cmd := rfl
@[simp] theorem feedStart_xacc (b : Byte) (s : State) : (feedStart b s).xacc = s.xacc := rfl
@[simp] theorem feedStart_aacc (b : Byte) (s : State) : (feedStart b s).aacc = s.aacc := rfl
@[simp] theorem feedStart_decSlot (b : Byte) (s : State) : (feedStart b s).decSlot = s.decSlot := rfl
@[simp] theorem feedStart_frmOut (b : Byte) (s : State) : (feedStart b s).frmOut = s.frmOut := rfl
@[simp] theorem feedStart_stOut (b : Byte) (s : State) : (feedStart b s).stOut = s.stOut := rfl
@[simp] theorem feedStart_txOut (b : Byte) (s : State) : (feedStart b s).txOut = s.txOut := rfl
@[simp] theorem feedStart_cmdRefused (b : Byte) (s : State) : (feedStart b s).cmdRefused = s.cmdRefused := rfl
@[simp] theorem feedStart_frmTaken (b : Byte) (s : State) : (feedStart b s).frmTaken = s.frmTaken := rfl
@[simp] theorem feedStart_stTaken (b : Byte) (s : State) : (feedStart b s).stTaken = s.stTaken := rfl
@[simp] theorem feedStart_txTaken (b : Byte) (s : State) : (feedStart b s).txTaken = s.txTaken := rfl
@[simp] theorem feedStart_emitted (b : Byte) (s : State) : (feedStart b s).emitted = s.emitted := rfl
@[simp] theorem feedStart_pushed (b : Byte) (s : State) : (feedStart b s).pushed = s.pushed := rfl
@[simp] theorem feedStart_ret (b : Byte) (s : State) : (feedStart b s).ret = s.ret := rfl
@[simp] theorem feedStart_host (b : Byte) (s : State) : (feedStart b s).host = s.host := rfl

/-! ## Updates that depend on a ready input -/

@[simp] theorem offerFrm_cfg (bs : List FrmBeat) (s : State) : (offerFrm bs s).cfg = s.cfg := by unfold offerFrm; split <;> rfl
@[simp] theorem offerFrm_buf (bs : List FrmBeat) (s : State) : (offerFrm bs s).buf = s.buf := by unfold offerFrm; split <;> rfl
@[simp] theorem offerFrm_ph (bs : List FrmBeat) (s : State) : (offerFrm bs s).ph = s.ph := by unfold offerFrm; split <;> rfl
@[simp] theorem offerFrm_i (bs : List FrmBeat) (s : State) : (offerFrm bs s).i = s.i := by unfold offerFrm; split <;> rfl
@[simp] theorem offerFrm_d (bs : List FrmBeat) (s : State) : (offerFrm bs s).d = s.d := by unfold offerFrm; split <;> rfl
@[simp] theorem offerFrm_L (bs : List FrmBeat) (s : State) : (offerFrm bs s).L = s.L := by unfold offerFrm; split <;> rfl
@[simp] theorem offerFrm_dev (bs : List FrmBeat) (s : State) : (offerFrm bs s).dev = s.dev := by unfold offerFrm; split <;> rfl
@[simp] theorem offerFrm_sub (bs : List FrmBeat) (s : State) : (offerFrm bs s).sub = s.sub := by unfold offerFrm; split <;> rfl
@[simp] theorem offerFrm_cmd (bs : List FrmBeat) (s : State) : (offerFrm bs s).cmd = s.cmd := by unfold offerFrm; split <;> rfl
@[simp] theorem offerFrm_xacc (bs : List FrmBeat) (s : State) : (offerFrm bs s).xacc = s.xacc := by unfold offerFrm; split <;> rfl
@[simp] theorem offerFrm_aacc (bs : List FrmBeat) (s : State) : (offerFrm bs s).aacc = s.aacc := by unfold offerFrm; split <;> rfl
@[simp] theorem offerFrm_decSlot (bs : List FrmBeat) (s : State) : (offerFrm bs s).decSlot = s.decSlot := by unfold offerFrm; split <;> rfl
@[simp] theorem offerFrm_frmOut (bs : List FrmBeat) (s : State) :
    (offerFrm bs s).frmOut = if s.host.levels.frmReady then [] else s.frmOut ++ bs := by
  unfold offerFrm; split <;> simp_all
@[simp] theorem offerFrm_stOut (bs : List FrmBeat) (s : State) : (offerFrm bs s).stOut = s.stOut := by unfold offerFrm; split <;> rfl
@[simp] theorem offerFrm_txOut (bs : List FrmBeat) (s : State) : (offerFrm bs s).txOut = s.txOut := by unfold offerFrm; split <;> rfl
@[simp] theorem offerFrm_cmdRefused (bs : List FrmBeat) (s : State) : (offerFrm bs s).cmdRefused = s.cmdRefused := by unfold offerFrm; split <;> rfl
@[simp] theorem offerFrm_frmTaken (bs : List FrmBeat) (s : State) :
    (offerFrm bs s).frmTaken = if s.host.levels.frmReady then s.frmTaken ++ (s.frmOut ++ bs) else s.frmTaken := by
  unfold offerFrm; split <;> simp_all
@[simp] theorem offerFrm_stTaken (bs : List FrmBeat) (s : State) : (offerFrm bs s).stTaken = s.stTaken := by unfold offerFrm; split <;> rfl
@[simp] theorem offerFrm_txTaken (bs : List FrmBeat) (s : State) : (offerFrm bs s).txTaken = s.txTaken := by unfold offerFrm; split <;> rfl
@[simp] theorem offerFrm_emitted (bs : List FrmBeat) (s : State) : (offerFrm bs s).emitted = s.emitted := by unfold offerFrm; split <;> rfl
@[simp] theorem offerFrm_pushed (bs : List FrmBeat) (s : State) : (offerFrm bs s).pushed = s.pushed := by unfold offerFrm; split <;> rfl
@[simp] theorem offerFrm_ret (bs : List FrmBeat) (s : State) : (offerFrm bs s).ret = s.ret := by unfold offerFrm; split <;> rfl
@[simp] theorem offerFrm_host (bs : List FrmBeat) (s : State) : (offerFrm bs s).host = s.host := by unfold offerFrm; split <;> rfl

@[simp] theorem offerSt_cfg (ws : List Word32) (s : State) : (offerSt ws s).cfg = s.cfg := by unfold offerSt; split <;> rfl
@[simp] theorem offerSt_buf (ws : List Word32) (s : State) : (offerSt ws s).buf = s.buf := by unfold offerSt; split <;> rfl
@[simp] theorem offerSt_ph (ws : List Word32) (s : State) : (offerSt ws s).ph = s.ph := by unfold offerSt; split <;> rfl
@[simp] theorem offerSt_i (ws : List Word32) (s : State) : (offerSt ws s).i = s.i := by unfold offerSt; split <;> rfl
@[simp] theorem offerSt_d (ws : List Word32) (s : State) : (offerSt ws s).d = s.d := by unfold offerSt; split <;> rfl
@[simp] theorem offerSt_L (ws : List Word32) (s : State) : (offerSt ws s).L = s.L := by unfold offerSt; split <;> rfl
@[simp] theorem offerSt_dev (ws : List Word32) (s : State) : (offerSt ws s).dev = s.dev := by unfold offerSt; split <;> rfl
@[simp] theorem offerSt_sub (ws : List Word32) (s : State) : (offerSt ws s).sub = s.sub := by unfold offerSt; split <;> rfl
@[simp] theorem offerSt_cmd (ws : List Word32) (s : State) : (offerSt ws s).cmd = s.cmd := by unfold offerSt; split <;> rfl
@[simp] theorem offerSt_xacc (ws : List Word32) (s : State) : (offerSt ws s).xacc = s.xacc := by unfold offerSt; split <;> rfl
@[simp] theorem offerSt_aacc (ws : List Word32) (s : State) : (offerSt ws s).aacc = s.aacc := by unfold offerSt; split <;> rfl
@[simp] theorem offerSt_decSlot (ws : List Word32) (s : State) : (offerSt ws s).decSlot = s.decSlot := by unfold offerSt; split <;> rfl
@[simp] theorem offerSt_frmOut (ws : List Word32) (s : State) : (offerSt ws s).frmOut = s.frmOut := by unfold offerSt; split <;> rfl
@[simp] theorem offerSt_stOut (ws : List Word32) (s : State) :
    (offerSt ws s).stOut = if s.host.levels.stReady then [] else s.stOut ++ ws := by
  unfold offerSt; split <;> simp_all
@[simp] theorem offerSt_txOut (ws : List Word32) (s : State) : (offerSt ws s).txOut = s.txOut := by unfold offerSt; split <;> rfl
@[simp] theorem offerSt_cmdRefused (ws : List Word32) (s : State) : (offerSt ws s).cmdRefused = s.cmdRefused := by unfold offerSt; split <;> rfl
@[simp] theorem offerSt_frmTaken (ws : List Word32) (s : State) : (offerSt ws s).frmTaken = s.frmTaken := by unfold offerSt; split <;> rfl
@[simp] theorem offerSt_stTaken (ws : List Word32) (s : State) :
    (offerSt ws s).stTaken = if s.host.levels.stReady then s.stTaken ++ (s.stOut ++ ws) else s.stTaken := by
  unfold offerSt; split <;> simp_all
@[simp] theorem offerSt_txTaken (ws : List Word32) (s : State) : (offerSt ws s).txTaken = s.txTaken := by unfold offerSt; split <;> rfl
@[simp] theorem offerSt_emitted (ws : List Word32) (s : State) : (offerSt ws s).emitted = s.emitted := by unfold offerSt; split <;> rfl
@[simp] theorem offerSt_pushed (ws : List Word32) (s : State) : (offerSt ws s).pushed = s.pushed := by unfold offerSt; split <;> rfl
@[simp] theorem offerSt_ret (ws : List Word32) (s : State) : (offerSt ws s).ret = s.ret := by unfold offerSt; split <;> rfl
@[simp] theorem offerSt_host (ws : List Word32) (s : State) : (offerSt ws s).host = s.host := by unfold offerSt; split <;> rfl

@[simp] theorem offerTx_cfg (bs : List TxBeat) (s : State) : (offerTx bs s).cfg = s.cfg := by unfold offerTx; split <;> rfl
@[simp] theorem offerTx_buf (bs : List TxBeat) (s : State) : (offerTx bs s).buf = s.buf := by unfold offerTx; split <;> rfl
@[simp] theorem offerTx_ph (bs : List TxBeat) (s : State) : (offerTx bs s).ph = s.ph := by unfold offerTx; split <;> rfl
@[simp] theorem offerTx_i (bs : List TxBeat) (s : State) : (offerTx bs s).i = s.i := by unfold offerTx; split <;> rfl
@[simp] theorem offerTx_d (bs : List TxBeat) (s : State) : (offerTx bs s).d = s.d := by unfold offerTx; split <;> rfl
@[simp] theorem offerTx_L (bs : List TxBeat) (s : State) : (offerTx bs s).L = s.L := by unfold offerTx; split <;> rfl
@[simp] theorem offerTx_dev (bs : List TxBeat) (s : State) : (offerTx bs s).dev = s.dev := by unfold offerTx; split <;> rfl
@[simp] theorem offerTx_sub (bs : List TxBeat) (s : State) : (offerTx bs s).sub = s.sub := by unfold offerTx; split <;> rfl
@[simp] theorem offerTx_cmd (bs : List TxBeat) (s : State) : (offerTx bs s).cmd = s.cmd := by unfold offerTx; split <;> rfl
@[simp] theorem offerTx_xacc (bs : List TxBeat) (s : State) : (offerTx bs s).xacc = s.xacc := by unfold offerTx; split <;> rfl
@[simp] theorem offerTx_aacc (bs : List TxBeat) (s : State) : (offerTx bs s).aacc = s.aacc := by unfold offerTx; split <;> rfl
@[simp] theorem offerTx_decSlot (bs : List TxBeat) (s : State) : (offerTx bs s).decSlot = s.decSlot := by unfold offerTx; split <;> rfl
@[simp] theorem offerTx_frmOut (bs : List TxBeat) (s : State) : (offerTx bs s).frmOut = s.frmOut := by unfold offerTx; split <;> rfl
@[simp] theorem offerTx_stOut (bs : List TxBeat) (s : State) : (offerTx bs s).stOut = s.stOut := by unfold offerTx; split <;> rfl
@[simp] theorem offerTx_txOut (bs : List TxBeat) (s : State) :
    (offerTx bs s).txOut = if s.host.levels.txReady then [] else s.txOut ++ bs := by
  unfold offerTx; split <;> simp_all
@[simp] theorem offerTx_cmdRefused (bs : List TxBeat) (s : State) : (offerTx bs s).cmdRefused = s.cmdRefused := by unfold offerTx; split <;> rfl
@[simp] theorem offerTx_frmTaken (bs : List TxBeat) (s : State) : (offerTx bs s).frmTaken = s.frmTaken := by unfold offerTx; split <;> rfl
@[simp] theorem offerTx_stTaken (bs : List TxBeat) (s : State) : (offerTx bs s).stTaken = s.stTaken := by unfold offerTx; split <;> rfl
@[simp] theorem offerTx_txTaken (bs : List TxBeat) (s : State) :
    (offerTx bs s).txTaken = if s.host.levels.txReady then s.txTaken ++ (s.txOut ++ bs) else s.txTaken := by
  unfold offerTx; split <;> simp_all
@[simp] theorem offerTx_emitted (bs : List TxBeat) (s : State) : (offerTx bs s).emitted = s.emitted := by unfold offerTx; split <;> rfl
@[simp] theorem offerTx_pushed (bs : List TxBeat) (s : State) : (offerTx bs s).pushed = s.pushed := by unfold offerTx; split <;> rfl
@[simp] theorem offerTx_ret (bs : List TxBeat) (s : State) : (offerTx bs s).ret = s.ret := by unfold offerTx; split <;> rfl
@[simp] theorem offerTx_host (bs : List TxBeat) (s : State) : (offerTx bs s).host = s.host := by unfold offerTx; split <;> rfl

@[simp] theorem emitFrame_cfg (f : Bytes) (s : State) : (emitFrame f s).cfg = s.cfg := by simp [emitFrame]
@[simp] theorem emitFrame_buf (f : Bytes) (s : State) : (emitFrame f s).buf = s.buf := by simp [emitFrame]
@[simp] theorem emitFrame_ph (f : Bytes) (s : State) : (emitFrame f s).ph = s.ph := by simp [emitFrame]
@[simp] theorem emitFrame_i (f : Bytes) (s : State) : (emitFrame f s).i = s.i := by simp [emitFrame]
@[simp] theorem emitFrame_d (f : Bytes) (s : State) : (emitFrame f s).d = s.d := by simp [emitFrame]
@[simp] theorem emitFrame_L (f : Bytes) (s : State) : (emitFrame f s).L = s.L := by simp [emitFrame]
@[simp] theorem emitFrame_dev (f : Bytes) (s : State) : (emitFrame f s).dev = s.dev := by simp [emitFrame]
@[simp] theorem emitFrame_sub (f : Bytes) (s : State) : (emitFrame f s).sub = s.sub := by simp [emitFrame]
@[simp] theorem emitFrame_cmd (f : Bytes) (s : State) : (emitFrame f s).cmd = s.cmd := by simp [emitFrame]
@[simp] theorem emitFrame_xacc (f : Bytes) (s : State) : (emitFrame f s).xacc = s.xacc := by simp [emitFrame]
@[simp] theorem emitFrame_aacc (f : Bytes) (s : State) : (emitFrame f s).aacc = s.aacc := by simp [emitFrame]
@[simp] theorem emitFrame_decSlot (f : Bytes) (s : State) :
    (emitFrame f s).decSlot = some f := by simp [emitFrame]
@[simp] theorem emitFrame_frmOut (f : Bytes) (s : State) :
    (emitFrame f s).frmOut = if s.host.levels.frmReady then [] else s.frmOut ++ frameBeats f := by simp [emitFrame]
@[simp] theorem emitFrame_stOut (f : Bytes) (s : State) : (emitFrame f s).stOut = s.stOut := by simp [emitFrame]
@[simp] theorem emitFrame_txOut (f : Bytes) (s : State) : (emitFrame f s).txOut = s.txOut := by simp [emitFrame]
@[simp] theorem emitFrame_cmdRefused (f : Bytes) (s : State) : (emitFrame f s).cmdRefused = s.cmdRefused := by simp [emitFrame]
@[simp] theorem emitFrame_frmTaken (f : Bytes) (s : State) :
    (emitFrame f s).frmTaken = if s.host.levels.frmReady then s.frmTaken ++ (s.frmOut ++ frameBeats f) else s.frmTaken := by simp [emitFrame]
@[simp] theorem emitFrame_stTaken (f : Bytes) (s : State) : (emitFrame f s).stTaken = s.stTaken := by simp [emitFrame]
@[simp] theorem emitFrame_txTaken (f : Bytes) (s : State) : (emitFrame f s).txTaken = s.txTaken := by simp [emitFrame]
@[simp] theorem emitFrame_emitted (f : Bytes) (s : State) :
    (emitFrame f s).emitted = s.emitted ++ [f] := by simp [emitFrame]
@[simp] theorem emitFrame_pushed (f : Bytes) (s : State) : (emitFrame f s).pushed = s.pushed := by simp [emitFrame]
@[simp] theorem emitFrame_ret (f : Bytes) (s : State) : (emitFrame f s).ret = s.ret := by simp [emitFrame]
@[simp] theorem emitFrame_host (f : Bytes) (s : State) : (emitFrame f s).host = s.host := by simp [emitFrame]

@[simp] theorem pushStates_cfg (sts : List DeviceState) (s : State) : (pushStates sts s).cfg = s.cfg := by simp [pushStates]
@[simp] theorem pushStates_buf (sts : List DeviceState) (s : State) : (pushStates sts s).buf = s.buf := by simp [pushStates]
@[simp] theorem pushStates_ph (sts : List DeviceState) (s : State) : (pushStates sts s).ph = s.ph := by simp [pushStates]
@[simp] theorem pushStates_i (sts : List DeviceState) (s : State) : (pushStates sts s).i = s.i := by simp [pushStates]
@[simp] theorem pushStates_d (sts : List DeviceState) (s : State) : (pushStates sts s).d = s.d := by simp [pushStates]
@[simp] theorem pushStates_L (sts : List DeviceState) (s : State) : (pushStates sts s).L = s.L := by simp [pushStates]
@[simp] theorem pushStates_dev (sts : List DeviceState) (s : State) : (pushStates sts s).dev = s.dev := by simp [pushStates]
@[simp] theorem pushStates_sub (sts : List DeviceState) (s : State) : (pushStates sts s).sub = s.sub := by simp [pushStates]
@[simp] theorem pushStates_cmd (sts : List DeviceState) (s : State) : (pushStates sts s).cmd = s.cmd := by simp [pushStates]
@[simp] theorem pushStates_xacc (sts : List DeviceState) (s : State) : (pushStates sts s).xacc = s.xacc := by simp [pushStates]
@[simp] theorem pushStates_aacc (sts : List DeviceState) (s : State) : (pushStates sts s).aacc = s.aacc := by simp [pushStates]
@[simp] theorem pushStates_decSlot (sts : List DeviceState) (s : State) : (pushStates sts s).decSlot = s.decSlot := by simp [pushStates]
@[simp] theorem pushStates_frmOut (sts : List DeviceState) (s : State) : (pushStates sts s).frmOut = s.frmOut := by simp [pushStates]
@[simp] theorem pushStates_stOut (sts : List DeviceState) (s : State) :
    (pushStates sts s).stOut = if s.host.levels.stReady then [] else s.stOut ++ sts.map dsw := by simp [pushStates]
@[simp] theorem pushStates_txOut (sts : List DeviceState) (s : State) : (pushStates sts s).txOut = s.txOut := by simp [pushStates]
@[simp] theorem pushStates_cmdRefused (sts : List DeviceState) (s : State) : (pushStates sts s).cmdRefused = s.cmdRefused := by simp [pushStates]
@[simp] theorem pushStates_frmTaken (sts : List DeviceState) (s : State) : (pushStates sts s).frmTaken = s.frmTaken := by simp [pushStates]
@[simp] theorem pushStates_stTaken (sts : List DeviceState) (s : State) :
    (pushStates sts s).stTaken = if s.host.levels.stReady then s.stTaken ++ (s.stOut ++ sts.map dsw) else s.stTaken := by simp [pushStates]
@[simp] theorem pushStates_txTaken (sts : List DeviceState) (s : State) : (pushStates sts s).txTaken = s.txTaken := by simp [pushStates]
@[simp] theorem pushStates_emitted (sts : List DeviceState) (s : State) : (pushStates sts s).emitted = s.emitted := by simp [pushStates]
@[simp] theorem pushStates_pushed (sts : List DeviceState) (s : State) :
    (pushStates sts s).pushed = s.pushed ++ sts := by simp [pushStates]
@[simp] theorem pushStates_ret (sts : List DeviceState) (s : State) : (pushStates sts s).ret = s.ret := by simp [pushStates]
@[simp] theorem pushStates_host (sts : List DeviceState) (s : State) : (pushStates sts s).host = s.host := by simp [pushStates]

end Sys2Proof.Machine
end

