-- ==== Sys2Proof/Laws/Ops.lean ====
section
/-! SUPPORT. What each shared operation can do, said once, so that callers cite it and never unfold the operation (spec/00_scope.md
R15, R17; spec/41_reassembler.md section 4; spec/42_decode.md R180). -/

namespace Sys2Proof.Machine
-- One theorem at a time: the stacks of many threads together pass the checker's memory limit.
set_option Elab.async false

/-! ## Searching and reading the buffer -/

/-- `find` answers an index exactly when it is the least one holding the byte (R15). -/
theorem find_eq_some_iff (v : Byte) (s : Bytes) (k : Nat) :
    find v s = some k ↔ s[k]? = some v ∧ ∀ j < k, s[j]? ≠ some v := by
  unfold find
  rw [List.findIdx?_eq_some_iff_getElem]
  constructor
  · rintro ⟨h, hv, hj⟩
    refine ⟨by simpa [List.getElem?_eq_getElem h] using hv, fun j hlt heq => ?_⟩
    have hjl : j < s.length := by omega
    have := hj j hlt
    simp [List.getElem?_eq_getElem hjl] at heq
    simp [heq] at this
  · rintro ⟨hv, hj⟩
    obtain ⟨h, he⟩ := List.getElem?_eq_some_iff.mp hv
    refine ⟨h, by simp [he], fun j hlt => ?_⟩
    have hjl : j < s.length := by omega
    have := hj j hlt
    simpa [List.getElem?_eq_getElem hjl] using this

/-- `find` answers none exactly when the byte does not occur (R15). -/
theorem find_eq_none_iff (v : Byte) (s : Bytes) : find v s = none ↔ ∀ b ∈ s, b ≠ v := by
  simp [find, List.findIdx?_eq_none_iff]

/-- The index `find` answers lies in the sequence. -/
theorem find_lt_length {v : Byte} {s : Bytes} {k : Nat} (h : find v s = some k) : k < s.length := by
  have := ((find_eq_some_iff v s k).mp h).1
  exact (List.getElem?_eq_some_iff.mp this).1

/-- Dropping what stands before the index `find` answers leaves a sequence that begins with the byte. -/
theorem find_drop_head {v : Byte} {s : Bytes} {k : Nat} (h : find v s = some k) : (s.drop k)[0]? = some v := by
  have := ((find_eq_some_iff v s k).mp h).1
  simpa using this

/-- A sequence that begins with the byte has it at index 0. -/
theorem find_of_head {v : Byte} {s : Bytes} (h : s[0]? = some v) : find v s = some 0 :=
  (find_eq_some_iff v s 0).mpr ⟨h, by intro j hj; omega⟩

/-- `MemRead(a, n)` answers exactly `buf[a ..< a+n]`, and only within the buffer (R17, R51). -/
theorem memRead_eq_some_iff (buf : Bytes) (a n : Nat) (r : Bytes) :
    memRead buf a n = some r ↔ a + n ≤ buf.length ∧ (buf.drop a).take n = r := by
  unfold memRead; split <;> simp_all

/-- `BufDrop(n)` answers exactly the bytes after the first `n`, and only when there are so many (R17). -/
theorem bufDrop_eq_some_iff (n : Nat) (buf r : Bytes) :
    bufDrop n buf = some r ↔ n ≤ buf.length ∧ buf.drop n = r := by
  unfold bufDrop; split <;> simp_all

/-- The guard leaves at most `BUF_BOUND` bytes (R142). -/
theorem guardBuf_length_le (bound : Nat) (buf : Bytes) : (guardBuf bound buf).length ≤ bound := by
  unfold guardBuf
  split
  · simp only [List.length_drop]; omega
  · omega

/-- The guard leaves a buffer within the bound alone (R142). -/
theorem guardBuf_of_le {bound : Nat} {buf : Bytes} (h : buf.length ≤ bound) : guardBuf bound buf = buf := by
  unfold guardBuf; rw [if_neg (by omega)]

/-! ## One operation after another -/

/-- Two operations in a row answer a next state exactly when the first does and the second does from there. -/
theorem andThen_eq_next_iff (o : Outcome) (f : State → Outcome) (t : State) :
    andThen o f = .next t ↔ ∃ u, o = .next u ∧ f u = .next t := by
  unfold andThen; cases o <;> simp

@[simp] theorem andThen_next (u : State) (f : State → Outcome) : andThen (.next u) f = f u := rfl

/-! ## What each micro-step can do -/

/-- FRS.S1 (R143). -/
theorem execFrsS1_cases (s : State) :
    (find SYNC s.buf = none ∧ execFrsS1 s = .next (stop { s with i := none, buf := [] })) ∨
    (∃ k, find SYNC s.buf = some k ∧ execFrsS1 s = .next (goto .s2 { s with i := some k })) := by
  unfold execFrsS1; cases find SYNC s.buf <;> simp

/-- FRS.S2 (R144), when it answers a next state. -/
theorem execFrsS2_next {s t : State} (h : execFrsS2 s = .next t) :
    ∃ k, s.i = some k ∧ k ≤ s.buf.length ∧ t = goto .s3 { s with buf := s.buf.drop k } := by
  unfold execFrsS2 at h
  split at h
  · exact absurd h (by simp)
  · rename_i k hk
    split at h
    · exact absurd h (by simp)
    · rename_i b hb
      obtain ⟨hle, rfl⟩ := (bufDrop_eq_some_iff ..).mp hb
      exact ⟨k, hk, hle, by simpa using h.symm⟩

/-- FRS.S4 (R146), when it answers a next state. -/
theorem execFrsS4_next {s t : State} (h : execFrsS4 s = .next t) :
    ∃ d, s.buf[4]? = some d ∧ t = goto .s5 { s with d := d, L := totalLength d } := by
  unfold execFrsS4 at h
  split at h
  · rename_i d hd
    obtain ⟨hle, ht⟩ := (memRead_eq_some_iff ..).mp hd
    refine ⟨d, ?_, by simpa using h.symm⟩
    have := congrArg (fun l => l[0]?) ht
    simpa [List.getElem?_take] using this
  · exact absurd h (by simp)

/-- FRS.S6 (R148), when it answers a next state: the candidate is valid, emitted and removed, or its first byte is removed. -/
theorem execFrsS6_next {s t : State} (h : execFrsS6 s = .next t) :
    s.L ≤ s.buf.length ∧
    ((valid (s.buf.take s.L) = true ∧ ∃ dev sub cmd,
        (s.buf.take s.L)[1]? = some dev ∧ (s.buf.take s.L)[2]? = some sub ∧ (s.buf.take s.L)[3]? = some cmd ∧
        t = goto .s1 { emitFrame (s.buf.take s.L)
              (setAcc (accValidate (s.buf.take s.L)).1 (accValidate (s.buf.take s.L)).2.1 s) with
            dev := dev, sub := sub, cmd := cmd, buf := s.buf.drop s.L }) ∨
      (valid (s.buf.take s.L) = false ∧ 1 ≤ s.buf.length ∧
        t = goto .s1 { setAcc (accValidate (s.buf.take s.L)).1 (accValidate (s.buf.take s.L)).2.1 s with
            buf := s.buf.drop 1 })) := by
  unfold execFrsS6 at h
  split at h
  · exact absurd h (by simp)
  · rename_i f hf
    obtain ⟨hle, hf'⟩ := (memRead_eq_some_iff ..).mp hf
    obtain rfl : s.buf.take s.L = f := by simpa using hf'
    refine ⟨by omega, ?_⟩
    cases hv : valid (s.buf.take s.L) with
    | true =>
      left
      simp only [hv, if_true] at h
      split at h
      · rename_i dev sub cmd b h1 h2 h3 hb
        obtain ⟨-, rfl⟩ := (bufDrop_eq_some_iff ..).mp hb
        exact ⟨rfl, dev, sub, cmd, h1, h2, h3, by simpa using h.symm⟩
      · exact absurd h (by simp)
    | false =>
      right
      simp only [hv, Bool.false_eq_true, if_false] at h
      split at h
      · rename_i b hb
        obtain ⟨hle1, rfl⟩ := (bufDrop_eq_some_iff ..).mp hb
        exact ⟨rfl, hle1, by simpa using h.symm⟩
      · exact absurd h (by simp)

/-! ## DEC -/

/-- Every decoder pushes a list of DeviceStates and does nothing else (R180). -/
theorem runDecoder_next (key : Option DeviceClass) (dev sub cmd : Byte) (data : Bytes) (s : State) :
    ∃ sts, runDecoder key dev sub cmd data s = .next (pushStates sts s) := by
  cases key with
  | none => exact ⟨_, rfl⟩
  | some k => cases k <;> exact ⟨_, rfl⟩

/-- What the decoder inside FRS.FEED.B pushes is `statesOf` of what was handed over, and it does nothing else (R180, R192). -/
theorem decodeEmitted_eq (f : Bytes) (s : State) : decodeEmitted f s = .next (pushStates (statesOf s.cfg f) s) := by
  unfold decodeEmitted statesOf
  cases frameFields f with
  | error e => rfl
  | ok p =>
    obtain ⟨dev, sub, cmd, data⟩ := p
    simp only
    cases decodeKey s.cfg dev cmd with
    | none => rfl
    | some k => cases k <;> rfl

/-- A word that names no row changes nothing but the returned value and what a push of nothing changes. -/
theorem noOperation_cases (e : DecodeError) (s : State) :
    noOperation e s = s ∨ noOperation e s = pushStates [] s ∨ ∃ r, noOperation e s = refuse r s := by
  cases e
  case noClass => exact .inr (.inr ⟨_, rfl⟩)
  case noAction => exact .inr (.inr ⟨_, rfl⟩)
  all_goals simp [noOperation]

/-- A byte string without the shape of a frame is decoded to nothing. -/
theorem noOperation_of_frameFields {f : Bytes} {e : DecodeError} (h : frameFields f = .error e) (s : State) :
    noOperation e s = pushStates [] s := by
  unfold frameFields at h
  split at h
  · repeat' split at h
    all_goals cases h <;> rfl
  · cases h; rfl

/-- A word outside the table of R210 is refused, as that rule's own tests refuse it. -/
theorem noOperation_of_decodeEnc {w : Word32} {e : DecodeError} (h : decodeEnc w = .error e) (s : State) :
    (classOfTag (crwCls w) = none ∧ noOperation e s = refuse .badClass s) ∨
    ((∃ k, classOfTag (crwCls w) = some k) ∧ noOperation e s = refuse .badAction s) := by
  unfold decodeEnc at h
  split at h
  · rename_i hk; cases h; exact .inl ⟨hk, rfl⟩
  · rename_i k hk
    split at h <;> cases h
    exact .inr ⟨⟨k, hk⟩, rfl⟩

/-! ## Receive operations in the order they are issued -/

/-- When an issued receive operation starts at once (R58). -/
theorem rxFree_iff (s : State) :
    rxFree s = true ↔ s.host.levels.rst = false ∧ s.ph = .q ∧ s.host.flushPin = false ∧ s.host.rxPin = none ∧ s.host.issued = [] := by
  simp [rxFree, and_assoc]

/-- Behind an issued operation nothing starts at once. -/
theorem rxFree_issue (op : RxOp) (ops : List RxOp) (s : State) : rxFree (issue (op :: ops) s) = false := by
  simp [rxFree]

/-- Issuing in two parts is issuing the whole. -/
theorem issue_issue (a b : List RxOp) (s : State) : issue b (issue a s) = issue (a ++ b) s := by
  simp [issue]

/-! ## The loop -/

/-- The engine's next action, case by case (R153): nothing while frame bytes wait; DEC on the handed-over frame; nothing while state
words wait; else the micro-step of the phase. -/
theorem rxAdvance_cases (s : State) :
    (s.frmOut ≠ [] ∧ rxAdvance s = none) ∨
    (s.frmOut = [] ∧ ∃ f, s.decSlot = some f ∧ rxAdvance s = some (decodeEmitted f { s with decSlot := none })) ∨
    (s.frmOut = [] ∧ s.decSlot = none ∧ s.stOut ≠ [] ∧ rxAdvance s = none) ∨
    (s.frmOut = [] ∧ s.decSlot = none ∧ s.stOut = [] ∧ rxAdvance s = microStep s) := by
  unfold rxAdvance
  cases s.frmOut with
  | cons b bs => exact .inl ⟨by simp, rfl⟩
  | nil =>
    cases s.decSlot with
    | some f => exact .inr (.inl ⟨rfl, f, rfl, rfl⟩)
    | none =>
      cases s.stOut with
      | cons w ws => exact .inr (.inr (.inl ⟨rfl, rfl, by simp, rfl⟩))
      | nil => exact .inr (.inr (.inr ⟨rfl, rfl, rfl, rfl⟩))

/-- What every action of the engine keeps, the loop keeps. -/
theorem rxLoop_keeps {P : State → Prop} (hP : ∀ s t, P s → rxAdvance s = some (.next t) → P t) :
    ∀ (n : Nat) (s t : State), P s → rxLoop n s = .next t → P t := by
  intro n
  induction n with
  | zero => intro s t hs h; simp only [rxLoop] at h; cases h; exact hs
  | succ n ih =>
    intro s t hs h
    simp only [rxLoop] at h
    split at h
    · cases h; exact hs
    · rename_i u hu; exact ih u t (hP s u hs hu) h
    · exact absurd h (by simp)
    · exact absurd h (by simp)

/-- Where no action of the engine stops, the loop does not, and it keeps what they keep. -/
theorem rxLoop_completes {P : State → Prop}
    (hP : ∀ s, P s → rxAdvance s = none ∨ ∃ t, rxAdvance s = some (.next t) ∧ P t) :
    ∀ (n : Nat) (s : State), P s → ∃ t, rxLoop n s = .next t ∧ P t := by
  intro n
  induction n with
  | zero => exact fun s hs => ⟨s, rfl, hs⟩
  | succ n ih =>
    intro s hs
    rcases hP s hs with h | ⟨t, ht, hPt⟩
    · exact ⟨s, by simp [rxLoop, h], hs⟩
    · obtain ⟨u, hu, hPu⟩ := ih t hPt
      exact ⟨u, by simp [rxLoop, ht, hu], hPu⟩

/-- A loop that waits or is quiescent goes no further. -/
theorem rxLoop_of_none {s : State} (h : rxAdvance s = none) (n : Nat) : rxLoop n s = .next s := by
  cases n <;> simp [rxLoop, h]

/-- What no micro-step touches: the configuration, the transmit side, the state port, the returned value and the outside agents. -/
structure RxFrame (s t : State) : Prop where
  cfg : t.cfg = s.cfg
  txOut : t.txOut = s.txOut
  txTaken : t.txTaken = s.txTaken
  cmdRefused : t.cmdRefused = s.cmdRefused
  ret : t.ret = s.ret
  host : t.host = s.host

/-- The frame is transitive. -/
theorem RxFrame.trans {s t u : State} (h : RxFrame s t) (k : RxFrame t u) : RxFrame s u :=
  ⟨k.cfg.trans h.cfg, k.txOut.trans h.txOut, k.txTaken.trans h.txTaken, k.cmdRefused.trans h.cmdRefused, k.ret.trans h.ret,
    k.host.trans h.host⟩

/-- Every micro-step keeps the frame. -/
theorem microStep_frame {s t : State} (h : microStep s = some (.next t)) : RxFrame s t := by
  unfold microStep at h
  split at h
  · exact absurd h (by simp)
  · rcases execFrsS1_cases s with ⟨-, hs⟩ | ⟨k, -, hs⟩ <;> rw [hs] at h <;> cases h <;> constructor <;> rfl
  · obtain ⟨k, -, -, rfl⟩ := execFrsS2_next (by simpa using h); constructor <;> rfl
  · unfold execFrsS3 at h; split at h <;> cases h <;> constructor <;> rfl
  · obtain ⟨d, -, rfl⟩ := execFrsS4_next (by simpa using h); constructor <;> rfl
  · unfold execFrsS5 at h; split at h <;> cases h <;> constructor <;> rfl
  · obtain ⟨-, ⟨-, dev, sub, cmd, -, -, -, rfl⟩ | ⟨-, -, rfl⟩⟩ := execFrsS6_next (by simpa using h) <;> constructor <;> simp

/-- Every action of the engine keeps the frame. -/
theorem rxAdvance_frame {s t : State} (h : rxAdvance s = some (.next t)) : RxFrame s t := by
  rcases rxAdvance_cases s with ⟨-, e⟩ | ⟨-, f, -, e⟩ | ⟨-, -, -, e⟩ | ⟨-, -, -, e⟩ <;> rw [e] at h
  · exact absurd h (by simp)
  · rw [decodeEmitted_eq] at h; cases h; constructor <;> simp
  · exact absurd h (by simp)
  · exact microStep_frame h

/-- FRS.FEED.B keeps the frame: the receive side touches nothing of the transmit side (R60). -/
theorem execFrsFeedB_frame {b : Byte} {s t : State} (h : execFrsFeedB b s = .next t) : RxFrame s t :=
  rxLoop_keeps (P := RxFrame s) (fun _ _ hs hu => hs.trans (rxAdvance_frame hu)) (loopBound (feedStart b s).buf)
    (feedStart b s) t ⟨rfl, rfl, rfl, rfl, rfl, rfl⟩ h

/-! ## `extract` -/

/-- One pass of `extract` on a fuel that is positive, with the passes' results named (R149). -/
theorem extractWithin_succ (n : Nat) (s : Bytes) :
    extractWithin (n + 1) s =
      match find SYNC s with
      | none => ([], [])
      | some i =>
        match (s.drop i)[4]? with
        | none => (s.drop i, [])
        | some d =>
          if (s.drop i).length < totalLength d then (s.drop i, [])
          else if valid ((s.drop i).take (totalLength d)) then
            ((extractWithin n ((s.drop i).drop (totalLength d))).1,
              (s.drop i).take (totalLength d) :: (extractWithin n ((s.drop i).drop (totalLength d))).2)
          else extractWithin n ((s.drop i).drop 1) := rfl

/-- Any two fuels larger than the length give the same result: each pass shortens the sequence (R160). -/
theorem extractWithin_fuel : ∀ (n m : Nat) (s : Bytes), s.length < n → s.length < m →
    extractWithin n s = extractWithin m s := by
  intro n
  induction n with
  | zero => intro m s h; omega
  | succ n ih =>
    intro m s hn hm
    obtain ⟨m, rfl⟩ : ∃ k, m = k + 1 := ⟨m - 1, by omega⟩
    rw [extractWithin_succ, extractWithin_succ]
    split
    · rfl
    · rename_i i hi
      have hlt := find_lt_length hi
      split
      · rfl
      · rename_i d _
        have h7 : 7 ≤ totalLength d := by unfold totalLength; omega
        rw [ih m ((s.drop i).drop (totalLength d)) (by simp; omega) (by simp; omega),
          ih m ((s.drop i).drop 1) (by simp; omega) (by simp; omega)]

end Sys2Proof.Machine
end

