-- ==== Sys2Proof/Laws/Cycle.lean ====
section
/-! SUPPORT. The cycle at the ports (spec/30_encoding.md R100): what each ready consumer takes, said once per port, and what the cycle
leaves alone, field by field; what each agent can select (R96), and what a step can do. -/

namespace Sys2Proof.Machine
-- One theorem at a time: the stacks of many threads together pass the checker's memory limit.
set_option Elab.async false

/-! ## One port each -/

/-- One transfer on the frame port: its first beat, when the consumer is ready. -/
theorem takeFrm_eq (s : State) : takeFrm s = { s with
    frmTaken := if s.host.levels.frmReady then s.frmTaken ++ s.frmOut.take 1 else s.frmTaken,
    frmOut := if s.host.levels.frmReady then s.frmOut.drop 1 else s.frmOut } := by
  unfold takeFrm
  cases hr : s.host.levels.frmReady <;> cases ho : s.frmOut <;> cases s <;> simp_all

/-- One transfer on the state port: its first beat, when the consumer is ready. -/
theorem takeSt_eq (s : State) : takeSt s = { s with
    stTaken := if s.host.levels.stReady then s.stTaken ++ s.stOut.take 1 else s.stTaken,
    stOut := if s.host.levels.stReady then s.stOut.drop 1 else s.stOut } := by
  unfold takeSt
  cases hr : s.host.levels.stReady <;> cases ho : s.stOut <;> cases s <;> simp_all

/-- One transfer on the tx port: its first beat, when the consumer is ready. -/
theorem takeTx_eq (s : State) : takeTx s = { s with
    txTaken := if s.host.levels.txReady then s.txTaken ++ s.txOut.take 1 else s.txTaken,
    txOut := if s.host.levels.txReady then s.txOut.drop 1 else s.txOut } := by
  unfold takeTx
  cases hr : s.host.levels.txReady <;> cases ho : s.txOut <;> cases s <;> simp_all

/-! ## The cycle -/

@[simp] theorem cycle_cfg (s : State) : (cycle s).cfg = s.cfg := by
  rw [cycle, takeTx_eq, takeSt_eq, takeFrm_eq]
@[simp] theorem cycle_buf (s : State) : (cycle s).buf = s.buf := by
  rw [cycle, takeTx_eq, takeSt_eq, takeFrm_eq]
@[simp] theorem cycle_ph (s : State) : (cycle s).ph = s.ph := by
  rw [cycle, takeTx_eq, takeSt_eq, takeFrm_eq]
@[simp] theorem cycle_i (s : State) : (cycle s).i = s.i := by
  rw [cycle, takeTx_eq, takeSt_eq, takeFrm_eq]
@[simp] theorem cycle_d (s : State) : (cycle s).d = s.d := by
  rw [cycle, takeTx_eq, takeSt_eq, takeFrm_eq]
@[simp] theorem cycle_L (s : State) : (cycle s).L = s.L := by
  rw [cycle, takeTx_eq, takeSt_eq, takeFrm_eq]
@[simp] theorem cycle_dev (s : State) : (cycle s).dev = s.dev := by
  rw [cycle, takeTx_eq, takeSt_eq, takeFrm_eq]
@[simp] theorem cycle_sub (s : State) : (cycle s).sub = s.sub := by
  rw [cycle, takeTx_eq, takeSt_eq, takeFrm_eq]
@[simp] theorem cycle_cmd (s : State) : (cycle s).cmd = s.cmd := by
  rw [cycle, takeTx_eq, takeSt_eq, takeFrm_eq]
@[simp] theorem cycle_xacc (s : State) : (cycle s).xacc = s.xacc := by
  rw [cycle, takeTx_eq, takeSt_eq, takeFrm_eq]
@[simp] theorem cycle_aacc (s : State) : (cycle s).aacc = s.aacc := by
  rw [cycle, takeTx_eq, takeSt_eq, takeFrm_eq]
@[simp] theorem cycle_decSlot (s : State) : (cycle s).decSlot = s.decSlot := by
  rw [cycle, takeTx_eq, takeSt_eq, takeFrm_eq]
@[simp] theorem cycle_emitted (s : State) : (cycle s).emitted = s.emitted := by
  rw [cycle, takeTx_eq, takeSt_eq, takeFrm_eq]
@[simp] theorem cycle_pushed (s : State) : (cycle s).pushed = s.pushed := by
  rw [cycle, takeTx_eq, takeSt_eq, takeFrm_eq]
@[simp] theorem cycle_ret (s : State) : (cycle s).ret = s.ret := by
  rw [cycle, takeTx_eq, takeSt_eq, takeFrm_eq]
@[simp] theorem cycle_host (s : State) : (cycle s).host = nextHost s.host := by
  rw [cycle, takeTx_eq, takeSt_eq, takeFrm_eq]
@[simp] theorem cycle_cmdRefused (s : State) : (cycle s).cmdRefused = none := by
  rw [cycle, takeTx_eq, takeSt_eq, takeFrm_eq]

/-! ## The outside agents: each port moves on its own -/

@[simp] theorem nextLevels_flushPin (h : HostSide) : (nextLevels h).flushPin = h.flushPin := by unfold nextLevels; split <;> rfl
@[simp] theorem nextLevels_flushIn (h : HostSide) : (nextLevels h).flushIn = h.flushIn := by unfold nextLevels; split <;> rfl
@[simp] theorem nextLevels_rxPin (h : HostSide) : (nextLevels h).rxPin = h.rxPin := by unfold nextLevels; split <;> rfl
@[simp] theorem nextLevels_rxIn (h : HostSide) : (nextLevels h).rxIn = h.rxIn := by unfold nextLevels; split <;> rfl
@[simp] theorem nextLevels_cmdPin (h : HostSide) : (nextLevels h).cmdPin = h.cmdPin := by unfold nextLevels; split <;> rfl
@[simp] theorem nextLevels_cmdIn (h : HostSide) : (nextLevels h).cmdIn = h.cmdIn := by unfold nextLevels; split <;> rfl
@[simp] theorem nextLevels_call (h : HostSide) : (nextLevels h).call = h.call := by unfold nextLevels; split <;> rfl

@[simp] theorem nextFlush_levels (h : HostSide) : (nextFlush h).levels = h.levels := by unfold nextFlush; split <;> rfl
@[simp] theorem nextFlush_wave (h : HostSide) : (nextFlush h).wave = h.wave := by unfold nextFlush; split <;> rfl
@[simp] theorem nextFlush_rxPin (h : HostSide) : (nextFlush h).rxPin = h.rxPin := by unfold nextFlush; split <;> rfl
@[simp] theorem nextFlush_rxIn (h : HostSide) : (nextFlush h).rxIn = h.rxIn := by unfold nextFlush; split <;> rfl
@[simp] theorem nextFlush_cmdPin (h : HostSide) : (nextFlush h).cmdPin = h.cmdPin := by unfold nextFlush; split <;> rfl
@[simp] theorem nextFlush_cmdIn (h : HostSide) : (nextFlush h).cmdIn = h.cmdIn := by unfold nextFlush; split <;> rfl
@[simp] theorem nextFlush_call (h : HostSide) : (nextFlush h).call = h.call := by unfold nextFlush; split <;> rfl

@[simp] theorem nextRx_levels (h : HostSide) : (nextRx h).levels = h.levels := by unfold nextRx; split <;> rfl
@[simp] theorem nextRx_wave (h : HostSide) : (nextRx h).wave = h.wave := by unfold nextRx; split <;> rfl
@[simp] theorem nextRx_flushPin (h : HostSide) : (nextRx h).flushPin = h.flushPin := by unfold nextRx; split <;> rfl
@[simp] theorem nextRx_flushIn (h : HostSide) : (nextRx h).flushIn = h.flushIn := by unfold nextRx; split <;> rfl
@[simp] theorem nextRx_cmdPin (h : HostSide) : (nextRx h).cmdPin = h.cmdPin := by unfold nextRx; split <;> rfl
@[simp] theorem nextRx_cmdIn (h : HostSide) : (nextRx h).cmdIn = h.cmdIn := by unfold nextRx; split <;> rfl
@[simp] theorem nextRx_call (h : HostSide) : (nextRx h).call = h.call := by unfold nextRx; split <;> rfl

@[simp] theorem nextCmd_levels (h : HostSide) : (nextCmd h).levels = h.levels := by unfold nextCmd; split <;> rfl
@[simp] theorem nextCmd_wave (h : HostSide) : (nextCmd h).wave = h.wave := by unfold nextCmd; split <;> rfl
@[simp] theorem nextCmd_flushPin (h : HostSide) : (nextCmd h).flushPin = h.flushPin := by unfold nextCmd; split <;> rfl
@[simp] theorem nextCmd_flushIn (h : HostSide) : (nextCmd h).flushIn = h.flushIn := by unfold nextCmd; split <;> rfl
@[simp] theorem nextCmd_rxPin (h : HostSide) : (nextCmd h).rxPin = h.rxPin := by unfold nextCmd; split <;> rfl
@[simp] theorem nextCmd_rxIn (h : HostSide) : (nextCmd h).rxIn = h.rxIn := by unfold nextCmd; split <;> rfl
@[simp] theorem nextCmd_call (h : HostSide) : (nextCmd h).call = h.call := by unfold nextCmd; split <;> rfl

@[simp] theorem nextIssued_levels (h : HostSide) : (nextIssued h).levels = h.levels := by unfold nextIssued; split <;> rfl
@[simp] theorem nextIssued_wave (h : HostSide) : (nextIssued h).wave = h.wave := by unfold nextIssued; split <;> rfl
@[simp] theorem nextIssued_flushIn (h : HostSide) : (nextIssued h).flushIn = h.flushIn := by unfold nextIssued; split <;> rfl
@[simp] theorem nextIssued_rxIn (h : HostSide) : (nextIssued h).rxIn = h.rxIn := by unfold nextIssued; split <;> rfl
@[simp] theorem nextIssued_cmdPin (h : HostSide) : (nextIssued h).cmdPin = h.cmdPin := by unfold nextIssued; split <;> rfl
@[simp] theorem nextIssued_cmdIn (h : HostSide) : (nextIssued h).cmdIn = h.cmdIn := by unfold nextIssued; split <;> rfl
@[simp] theorem nextIssued_call (h : HostSide) : (nextIssued h).call = h.call := by unfold nextIssued; split <;> rfl

@[simp] theorem nextReceive_levels (h : HostSide) : (nextReceive h).levels = h.levels := by unfold nextReceive; split <;> simp
@[simp] theorem nextReceive_wave (h : HostSide) : (nextReceive h).wave = h.wave := by unfold nextReceive; split <;> simp
@[simp] theorem nextReceive_cmdPin (h : HostSide) : (nextReceive h).cmdPin = h.cmdPin := by unfold nextReceive; split <;> simp
@[simp] theorem nextReceive_cmdIn (h : HostSide) : (nextReceive h).cmdIn = h.cmdIn := by unfold nextReceive; split <;> simp
@[simp] theorem nextReceive_call (h : HostSide) : (nextReceive h).call = h.call := by unfold nextReceive; split <;> simp

@[simp] theorem nextLevels_issued (h : HostSide) : (nextLevels h).issued = h.issued := by unfold nextLevels; split <;> rfl
@[simp] theorem nextFlush_issued (h : HostSide) : (nextFlush h).issued = h.issued := by unfold nextFlush; split <;> rfl
@[simp] theorem nextRx_issued (h : HostSide) : (nextRx h).issued = h.issued := by unfold nextRx; split <;> rfl
@[simp] theorem nextCmd_issued (h : HostSide) : (nextCmd h).issued = h.issued := by unfold nextCmd; split <;> rfl

/-- While a byte or a flush stands, no issued operation comes to the ports. -/
theorem nextIssued_eq_self (h : HostSide) (hp : h.flushPin = true ∨ h.rxPin ≠ none) : nextIssued h = h := by
  unfold nextIssued; split <;> simp_all

/-- A byte not yet taken is held (R100). -/
theorem nextHost_rxPin_held (h : HostSide) (b : Byte) (hp : h.rxPin = some b) :
    (nextHost h).rxPin = some b ∧ (nextHost h).rxIn = h.rxIn := by
  have hn : ∀ g : HostSide, g.rxPin = some b → nextRx g = g := fun g hg => by unfold nextRx; split <;> simp_all
  have hr : (nextReceive (nextLevels h)).rxPin = some b ∧ (nextReceive (nextLevels h)).rxIn = h.rxIn := by
    unfold nextReceive
    split
    · rw [hn _ (by simpa using hp)]; simpa using hp
    · rw [nextIssued_eq_self _ (by simp [hp])]; simpa using hp
  simpa [nextHost] using hr

/-- A flush not yet taken stays requested (R150). -/
theorem nextHost_flushPin_held (h : HostSide) (hp : h.flushPin = true) :
    (nextHost h).flushPin = true ∧ (nextHost h).flushIn = h.flushIn := by
  have hn : ∀ g : HostSide, g.flushPin = true → nextFlush g = g := fun g hg => by unfold nextFlush; split <;> simp_all
  have hr : (nextReceive (nextLevels h)).flushPin = true ∧ (nextReceive (nextLevels h)).flushIn = h.flushIn := by
    unfold nextReceive
    split
    · rw [nextRx_flushPin, nextRx_flushIn, hn _ (by simpa using hp)]; simpa using hp
    · rw [nextIssued_eq_self _ (by simp [hp])]; simpa using hp
  simpa [nextHost] using hr

/-- What an issued operation does to the ports when it comes there; what stands behind it waits (R58). -/
theorem nextHost_issued (h : HostSide) (op : RxOp) (ops : List RxOp) (hi : h.issued = op :: ops) :
    (nextHost h).flushIn = h.flushIn ∧ (nextHost h).rxIn = h.rxIn ∧
    (h.flushPin = true ∨ h.rxPin ≠ none →
      (nextHost h).issued = h.issued ∧ (nextHost h).flushPin = h.flushPin ∧ (nextHost h).rxPin = h.rxPin) ∧
    (h.flushPin = false → h.rxPin = none → (nextHost h).issued = ops ∧
      (nextHost h).flushPin = decide (op = .flush) ∧ (nextHost h).rxPin = (match op with | .byte b => some b | .flush => none)) := by
  have hl : (nextLevels h).issued = op :: ops := by simpa using hi
  have hr : nextReceive (nextLevels h) = nextIssued (nextLevels h) := by unfold nextReceive; rw [hl]
  simp only [nextHost, nextCmd_flushIn, nextCmd_rxIn, nextCmd_issued, nextCmd_flushPin, nextCmd_rxPin, hr]
  refine ⟨by simp, by simp, fun hp => ?_, fun h1 h2 => ?_⟩
  · rw [nextIssued_eq_self _ (by simpa using hp)]; simp
  · have e1 : (nextLevels h).flushPin = false := by simpa using h1
    have e2 : (nextLevels h).rxPin = none := by simpa using h2
    unfold nextIssued
    rw [e1, e2, hl]
    cases op <;> simp

/-- A command not yet taken is held (R100). -/
theorem nextHost_cmdPin_held (h : HostSide) (w : Word32) (hp : h.cmdPin = some w) :
    (nextHost h).cmdPin = some w ∧ (nextHost h).cmdIn = h.cmdIn := by
  have hn : ∀ g : HostSide, g.cmdPin = some w → nextCmd g = g := fun g hg => by unfold nextCmd; split <;> simp_all
  rw [nextHost, hn _ (by simpa using hp)]
  simpa using hp

/-- A call of an internal function is held. -/
@[simp] theorem nextHost_call (h : HostSide) : (nextHost h).call = h.call := by simp [nextHost]

theorem nextHost_levels (h : HostSide) : (nextHost h).levels = (nextLevels h).levels := by simp [nextHost]
theorem nextHost_wave (h : HostSide) : (nextHost h).wave = (nextLevels h).wave := by simp [nextHost]

/-- The levels of the next cycle are the present ones or the next of the wave. -/
theorem nextHost_levels_mem (h : HostSide) : (nextHost h).levels ∈ h.levels :: h.wave := by
  rw [nextHost_levels]; unfold nextLevels; split <;> simp_all

/-- The levels that stand or follow in the next cycle stood or followed before. -/
theorem nextHost_wave_subset (h : HostSide) (l : Levels) (hl : l ∈ (nextHost h).levels :: (nextHost h).wave) :
    l ∈ h.levels :: h.wave := by
  rw [nextHost_levels, nextHost_wave] at hl
  unfold nextLevels at hl
  split at hl <;> simp_all

/-! ## What each agent can select -/

/-- TX selects nothing, or takes the standing command while it delivers no frame (R269). -/
theorem txSelect_cases (s : State) :
    ((s.host.cmdPin = none ∨ s.txOut ≠ []) ∧ txSelect s = none) ∨
    (∃ w, s.host.cmdPin = some w ∧ s.txOut = [] ∧
      txSelect s = some (.cmd w, { s with host := { s.host with cmdPin := none } })) := by
  unfold txSelect
  cases s.host.cmdPin <;> cases s.txOut <;> simp

/-- A call is selected exactly when one stands. -/
theorem callSelect_cases (s : State) :
    (s.host.call = none ∧ callSelect s = none) ∨
    (∃ u, s.host.call = some u ∧ callSelect s = some (.unit u, { s with host := { s.host with call := none } })) := by
  unfold callSelect
  cases s.host.call <;> simp

/-- The receive side's offers: a flush first, then a byte, then nothing (R150). -/
theorem rxAccept_cases (s : State) :
    (s.host.flushPin = true ∧ rxAccept s = some (.flush, { s with host := { s.host with flushPin := false } })) ∨
    (∃ b, s.host.flushPin = false ∧ s.host.rxPin = some b ∧
      rxAccept s = some (.rx b, { s with host := { s.host with rxPin := none } })) ∨
    (s.host.flushPin = false ∧ s.host.rxPin = none ∧ rxAccept s = none) := by
  unfold rxAccept
  cases s.host.flushPin <;> cases s.host.rxPin <;> simp

/-- The engine away from `ph = Q`, in the order of `rxAdvance_cases` (R153). -/
theorem rxGoOn_cases (s : State) :
    (s.frmOut ≠ [] ∧ rxGoOn s = none) ∨
    (s.frmOut = [] ∧ ∃ f, s.decSlot = some f ∧ rxGoOn s = some (.frame f, { s with decSlot := none })) ∨
    (s.frmOut = [] ∧ s.decSlot = none ∧ s.stOut ≠ [] ∧ rxGoOn s = none) ∨
    (s.frmOut = [] ∧ s.decSlot = none ∧ s.stOut = [] ∧ s.ph = .q ∧ rxGoOn s = none) ∨
    (s.frmOut = [] ∧ s.decSlot = none ∧ s.stOut = [] ∧ s.ph ≠ .q ∧ rxGoOn s = some (.phase (phaseCode s.ph), s)) := by
  unfold rxGoOn
  cases s.frmOut with
  | cons b bs => simp
  | nil =>
    cases s.decSlot with
    | some f => simp
    | none =>
      cases s.stOut with
      | cons w ws => simp
      | nil => by_cases h : s.ph = .q <;> simp [h]

/-- The offers a reset cycle takes change nothing but the outside agents' side (log 18). -/
theorem resetTakes_host (s : State) : ∃ h : HostSide, resetTakes s = { s with host := h } := by
  have htx : ∃ h : HostSide, offerTaken txSelect s = { s with host := h } := by
    unfold offerTaken
    rcases txSelect_cases s with ⟨-, e⟩ | ⟨w, -, -, e⟩ <;> rw [e]
    · exact ⟨s.host, rfl⟩
    · exact ⟨_, rfl⟩
  obtain ⟨h, eh⟩ := htx
  unfold resetTakes
  rw [eh]
  split
  · unfold offerTaken
    rcases rxAccept_cases { s with host := h } with ⟨-, e⟩ | ⟨b, -, -, e⟩ | ⟨-, -, e⟩ <;> rw [e] <;> exact ⟨_, rfl⟩
  · exact ⟨h, rfl⟩

/-! ## What a step can do -/

/-- An agent, when it answers a next state: it idled, or ran the operation its word names, or its word names none. -/
theorem runSelected_next {sel : State → Option (OpWord × State)} {s t : State} (h : runSelected sel s = .next t) :
    (sel s = none ∧ t = s) ∨ (∃ o u i, sel s = some (o, u) ∧ decode u.cfg o = .ok i ∧ exec i u = .next t) ∨
    ∃ o u e, sel s = some (o, u) ∧ decode u.cfg o = .error e ∧ t = noOperation e u := by
  unfold runSelected at h
  split at h
  · rename_i hs; exact .inl ⟨hs, by simpa using h.symm⟩
  · rename_i o u hs
    split at h
    · rename_i i hi; exact .inr (.inl ⟨o, u, i, hs, hi, h⟩)
    · rename_i e he; exact .inr (.inr ⟨o, u, e, hs, he, by simpa using h.symm⟩)

/-- A step, when it answers a next state: a reset, or the agents one after the other under a legal configuration. -/
theorem step_next {s t : State} (h : step s = .next t) :
    ((cycle s).host.levels.rst = true ∧ runSelected rstSelect (cycle s) = .next t) ∨
    ((cycle s).host.levels.rst = false ∧ s.cfg.wf = true ∧ ∃ u v, runSelected callSelect (cycle s) = .next u ∧
      runSelected txSelect u = .next v ∧ runSelected rxSelect v = .next t) := by
  unfold step at h
  simp only at h
  split at h
  · rename_i hr; exact .inl ⟨hr, h⟩
  · rename_i hr
    split at h
    · rename_i hw
      obtain ⟨v, hv, ht⟩ := (andThen_eq_next_iff ..).mp h
      obtain ⟨u, hu, hv⟩ := (andThen_eq_next_iff ..).mp hv
      exact .inr ⟨by simpa using hr, by simpa using hw, u, v, hu, hv, ht⟩
    · exact absurd h (by simp)

end Sys2Proof.Machine
end

