-- ==== Sys2Proof/Laws/Encoding.lean ====
section
/-! SUPPORT. The fields of the selecting words and of the frame (spec/30_encoding.md R81, R94, R97): what decoding reads from what
encoding writes, field by field; and the accumulator pass of spec/40_checksum.md R129. -/

namespace Sys2Proof
-- One theorem at a time: the stacks of many threads together pass the checker's memory limit.
set_option Elab.async false

/-! ## The command request word (R94) -/

@[simp] theorem crwCls_mkCrw (cls act : BitVec 3) (rsv : BitVec 2) (zone : Byte) (arg : BitVec 16) :
    crwCls (mkCrw cls act rsv zone arg) = cls := by
  apply BitVec.eq_of_getLsbD_eq; intro k hk
  simp only [crwCls, mkCrw, BitVec.getLsbD_extractLsb', BitVec.getLsbD_append]
  rcases k with _ | _ | _ | k <;> simp

@[simp] theorem crwAct_mkCrw (cls act : BitVec 3) (rsv : BitVec 2) (zone : Byte) (arg : BitVec 16) :
    crwAct (mkCrw cls act rsv zone arg) = act := by
  apply BitVec.eq_of_getLsbD_eq; intro k hk
  simp only [crwAct, mkCrw, BitVec.getLsbD_extractLsb', BitVec.getLsbD_append]
  rcases k with _ | _ | _ | k <;> simp

@[simp] theorem crwRsv_mkCrw (cls act : BitVec 3) (rsv : BitVec 2) (zone : Byte) (arg : BitVec 16) :
    crwRsv (mkCrw cls act rsv zone arg) = rsv := by
  apply BitVec.eq_of_getLsbD_eq; intro k hk
  simp only [crwRsv, mkCrw, BitVec.getLsbD_extractLsb', BitVec.getLsbD_append]
  rcases k with _ | _ | k <;> simp

@[simp] theorem crwZone_mkCrw (cls act : BitVec 3) (rsv : BitVec 2) (zone : Byte) (arg : BitVec 16) :
    crwZone (mkCrw cls act rsv zone arg) = zone := by
  apply BitVec.eq_of_getLsbD_eq; intro k hk
  have h1 : ¬ 16 + k < 16 := by omega
  have h2 : 16 + k - 16 = k := by omega
  simp only [crwZone, mkCrw, BitVec.getLsbD_extractLsb', BitVec.getLsbD_append, h1, h2, hk, decide_true,
    Bool.true_and, if_true, if_false]

@[simp] theorem crwArg_mkCrw (cls act : BitVec 3) (rsv : BitVec 2) (zone : Byte) (arg : BitVec 16) :
    crwArg (mkCrw cls act rsv zone arg) = arg := by
  apply BitVec.eq_of_getLsbD_eq; intro k hk
  simp only [crwArg, mkCrw, BitVec.getLsbD_extractLsb', BitVec.getLsbD_append, Nat.zero_add, hk, decide_true, Bool.true_and,
    if_true]

@[simp] theorem classOfTag_classTag (k : DeviceClass) : classOfTag (classTag k) = some k := by cases k <;> rfl

@[simp] theorem actionOfTag_actionTag (a : Action) : actionOfTag (actionTag a) = a := by cases a <;> rfl

@[simp] theorem actionTag_actionOfTag (t : BitVec 3) : actionTag (actionOfTag t) = t := by
  revert t; decide

/-! ## The phase codes (R97) -/

@[simp] theorem phaseOfCode_phaseCode (p : Phase) : phaseOfCode (phaseCode p) = some p := by cases p <;> rfl

/-! ## The frame (R81) -/

/-- The header fields and the data region of a built frame are its operands. -/
theorem frameFields_frameOf (dev sub cmd : Byte) (data : Bytes) (h : data.length ≤ 255) :
    frameFields (Machine.frameOf dev sub cmd data) = .ok (dev, sub, cmd, data) := by
  have hl : (BitVec.ofNat 8 data.length).toNat = data.length := by
    simp only [BitVec.toNat_ofNat]; omega
  simp [frameFields, Machine.frameOf, Machine.gen, Machine.totalLength, hl]

/-! ## The accumulators (R129) -/

/-- The accumulator pass from any start: XOR and sum are added to what the accumulators hold. -/
theorem accPass_from (s : Bytes) : ∀ x a : Byte,
    s.foldl (fun (p : Byte × Byte) b => (p.1 ^^^ b, p.2 + b)) (x, a) =
      (s.foldl (· ^^^ ·) x, a + BitVec.ofNat 8 (s.map BitVec.toNat).sum) := by
  induction s with
  | nil => intro x a; simp
  | cons b s ih =>
    intro x a
    rw [List.foldl_cons, ih]
    simp [List.foldl_cons, BitVec.ofNat_add, BitVec.add_assoc]

/-- The accumulator pass of R129 computes CHK.XOR and CHK.ADD. -/
theorem accPass_eq (s : Bytes) : Machine.accPass s = (Machine.xorOf s, Machine.addOf s) := by
  rw [Machine.accPass, accPass_from]
  simp [Machine.xorOf, Machine.addOf]

end Sys2Proof
end

