-- ==== Sys2Proof/Laws/Memory.lean ====
section
/-! SUPPORT. The buffer's cells keep their one canonical form under every operation on the buffer (spec/10_state.md R32;
spec/20_memory.md R50), and the laws of reading after an append or a removal. -/

namespace Sys2Proof.Machine
-- One theorem at a time: the stacks of many threads together pass the checker's memory limit.
set_option Elab.async false

/-! ## The canonical form -/

/-- The addresses of a buffer's cells are 0, 1, .., len-1 (R32). -/
theorem cellsOf_addresses (buf : Bytes) : (cellsOf buf).map Prod.fst = List.range buf.length := by
  have h : (cellsOf buf).map Prod.fst = (buf.zipIdx).map Prod.snd := by simp [cellsOf, Function.comp_def]
  rw [h, List.zipIdx_map_snd, List.range_eq_range']

/-- The cells of every buffer are in the canonical form. -/
theorem cellsOf_wf (buf : Bytes) : Memory.wf (cellsOf buf) = true := by
  have hl : (cellsOf buf).length = buf.length := by simp [cellsOf]
  rw [Memory.wf, cellsOf_addresses, hl, decide_eq_true rfl]

/-- Appending keeps the canonical form (FRS.FEED.B). -/
theorem memAppend_wf (buf v : Bytes) : Memory.wf (cellsOf (memAppend buf v)) = true := cellsOf_wf _

/-- Removing from the front keeps the canonical form (FRS.S2, FRS.S6). -/
theorem bufDrop_wf {n : Nat} {buf r : Bytes} (_ : bufDrop n buf = some r) : Memory.wf (cellsOf r) = true := cellsOf_wf r

/-- The guard keeps the canonical form. -/
theorem guardBuf_wf (bound : Nat) (buf : Bytes) : Memory.wf (cellsOf (guardBuf bound buf)) = true := cellsOf_wf _

/-- Clearing keeps the canonical form, and the buffer after reset has it (FRS.S1, FRS.FLUSH, BFE.RESET). -/
theorem reset_wf : Memory.wf (cellsOf State.reset.buf) = true := cellsOf_wf _

/-! ## Reading one byte -/

/-- The byte at an address of the buffer, none where the address does not exist, is what a read of one byte answers (R51). -/
theorem memRead_one (buf : Bytes) (a : Nat) : memRead buf a 1 = buf[a]?.map fun b => [b] := by
  unfold memRead
  by_cases h : a < buf.length
  · rw [if_pos (by omega), List.drop_eq_getElem_cons h, List.take_succ_cons, List.take_zero, List.getElem?_eq_getElem h]
    rfl
  · rw [if_neg (by omega), List.getElem?_eq_none (by omega)]
    rfl

/-- An append leaves every byte that was there where it was (R50). -/
theorem memAppend_read {buf v : Bytes} {k : Nat} (h : k < buf.length) : (memAppend buf v)[k]? = buf[k]? := by
  simp [memAppend, List.getElem?_append_left h]

/-- The byte appended stands at the tail (R50). -/
theorem memAppend_tail (buf : Bytes) (b : Byte) : (memAppend buf [b])[buf.length]? = some b := by
  simp [memAppend]

/-- Removing `n` bytes moves every later byte `n` places towards the head (R50). -/
theorem bufDrop_read {n : Nat} {buf r : Bytes} (h : bufDrop n buf = some r) (k : Nat) : r[k]? = buf[n + k]? := by
  obtain ⟨-, rfl⟩ := (bufDrop_eq_some_iff ..).mp h
  simp

end Sys2Proof.Machine
end

