-- ==== Sys2Proof/Laws/PerInstr.lean ====
section
/-! SUPPORT. A family of facts with one lemma per instruction: the encoder gives every instruction a selecting word of the format
that its row of spec/opcode_table.json names. -/

namespace Sys2Proof.Laws
-- One theorem at a time: the stacks of many threads together pass the checker's memory limit.
set_option Elab.async false

/-- The values of the table's column "format". -/
inductive Format where
  | port
  | port8
  | micro
  | phase3
  | function
  | frameHdr40
  | crw32
deriving DecidableEq, Repr

/-- The format of a selecting word. -/
def formatOf : OpWord → Format
  | .rst => .port
  | .flush => .port
  | .rx _ => .port8
  | .phase _ => .phase3
  | .frame _ => .frameHdr40
  | .cmd _ => .crw32
  | .unit .guard => .micro
  | .unit (.chkXor _) => .function
  | .unit (.chkAdd _) => .function
  | .unit (.chkValidate _) => .function
  | .unit (.chkGen _) => .function
  | .unit (.build _ _ _ _) => .function
  | .unit (.enc _) => .crw32

/-- The format the table gives the instruction's row. -/
def tableFormat : Instr → Format
  | .bfeReset => .port
  | .frsFlush => .port
  | .frsFeedB _ => .port8
  | .frsGuard => .micro
  | .frsS1 => .phase3
  | .frsS2 => .phase3
  | .frsS3 => .phase3
  | .frsS4 => .phase3
  | .frsS5 => .phase3
  | .frsS6 => .phase3
  | .chkXor _ => .function
  | .chkAdd _ => .function
  | .chkValidate _ => .function
  | .chkGen _ => .function
  | .decLight _ _ => .frameHdr40
  | .decThermo _ _ => .frameHdr40
  | .decVent _ _ => .frameHdr40
  | .decGas _ _ => .frameHdr40
  | .decElev _ _ => .frameHdr40
  | .decIgnore _ _ _ _ => .frameHdr40
  | .encLightSet _ _ _ _ => .crw32
  | .encThMode _ _ _ => .crw32
  | .encThTemp _ _ _ => .crw32
  | .encThAway _ _ _ => .crw32
  | .encVentPower _ _ _ _ => .crw32
  | .encVentSpeed _ _ _ => .crw32
  | .encGasClose _ _ _ _ => .crw32
  | .encElevCall _ _ _ => .crw32
  | .bldBuild _ _ _ _ => .function
  | .txCmd _ _ _ _ _ => .crw32

/-- The encoder's word has the format of the instruction's row. -/
def OpFormat.Statement (i : Instr) : Prop := ∀ c : Cfg, formatOf (encode c i) = tableFormat i

theorem OpFormat.bfeReset : OpFormat.Statement (.bfeReset) := fun _ => rfl
theorem OpFormat.frsFlush : OpFormat.Statement (.frsFlush) := fun _ => rfl
theorem OpFormat.frsFeedB (b : Byte) : OpFormat.Statement (.frsFeedB b) := fun _ => rfl
theorem OpFormat.frsGuard : OpFormat.Statement (.frsGuard) := fun _ => rfl
theorem OpFormat.frsS1 : OpFormat.Statement (.frsS1) := fun _ => rfl
theorem OpFormat.frsS2 : OpFormat.Statement (.frsS2) := fun _ => rfl
theorem OpFormat.frsS3 : OpFormat.Statement (.frsS3) := fun _ => rfl
theorem OpFormat.frsS4 : OpFormat.Statement (.frsS4) := fun _ => rfl
theorem OpFormat.frsS5 : OpFormat.Statement (.frsS5) := fun _ => rfl
theorem OpFormat.frsS6 : OpFormat.Statement (.frsS6) := fun _ => rfl
theorem OpFormat.chkXor (s : Bytes) : OpFormat.Statement (.chkXor s) := fun _ => rfl
theorem OpFormat.chkAdd (s : Bytes) : OpFormat.Statement (.chkAdd s) := fun _ => rfl
theorem OpFormat.chkValidate (f : Bytes) : OpFormat.Statement (.chkValidate f) := fun _ => rfl
theorem OpFormat.chkGen (s : Bytes) : OpFormat.Statement (.chkGen s) := fun _ => rfl
theorem OpFormat.decLight (sub : Byte) (data : Bytes) : OpFormat.Statement (.decLight sub data) := fun _ => rfl
theorem OpFormat.decThermo (sub : Byte) (data : Bytes) : OpFormat.Statement (.decThermo sub data) := fun _ => rfl
theorem OpFormat.decVent (sub : Byte) (data : Bytes) : OpFormat.Statement (.decVent sub data) := fun _ => rfl
theorem OpFormat.decGas (sub : Byte) (data : Bytes) : OpFormat.Statement (.decGas sub data) := fun _ => rfl
theorem OpFormat.decElev (sub : Byte) (data : Bytes) : OpFormat.Statement (.decElev sub data) := fun _ => rfl
theorem OpFormat.decIgnore (dev sub cmd : Byte) (data : Bytes) : OpFormat.Statement (.decIgnore dev sub cmd data) := fun _ => rfl
theorem OpFormat.encLightSet (on : Bool) (rsv : BitVec 2) (zone : Byte) (arg : BitVec 16) : OpFormat.Statement (.encLightSet on rsv zone arg) := fun _ => rfl
theorem OpFormat.encThMode (rsv : BitVec 2) (zone : Byte) (arg : BitVec 16) : OpFormat.Statement (.encThMode rsv zone arg) := fun _ => rfl
theorem OpFormat.encThTemp (rsv : BitVec 2) (zone : Byte) (arg : BitVec 16) : OpFormat.Statement (.encThTemp rsv zone arg) := fun _ => rfl
theorem OpFormat.encThAway (rsv : BitVec 2) (zone : Byte) (arg : BitVec 16) : OpFormat.Statement (.encThAway rsv zone arg) := fun _ => rfl
theorem OpFormat.encVentPower (on : Bool) (rsv : BitVec 2) (zone : Byte) (arg : BitVec 16) : OpFormat.Statement (.encVentPower on rsv zone arg) := fun _ => rfl
theorem OpFormat.encVentSpeed (rsv : BitVec 2) (zone : Byte) (arg : BitVec 16) : OpFormat.Statement (.encVentSpeed rsv zone arg) := fun _ => rfl
theorem OpFormat.encGasClose (act : Action) (rsv : BitVec 2) (zone : Byte) (arg : BitVec 16) : OpFormat.Statement (.encGasClose act rsv zone arg) := fun _ => rfl
theorem OpFormat.encElevCall (rsv : BitVec 2) (zone : Byte) (arg : BitVec 16) : OpFormat.Statement (.encElevCall rsv zone arg) := fun _ => rfl
theorem OpFormat.bldBuild (dev sub cmd : Byte) (payload : Bytes) : OpFormat.Statement (.bldBuild dev sub cmd payload) := fun _ => rfl
theorem OpFormat.txCmd (cls : BitVec 3) (act : Action) (rsv : BitVec 2) (zone : Byte) (arg : BitVec 16) : OpFormat.Statement (.txCmd cls act rsv zone arg) := fun _ => rfl

end Sys2Proof.Laws
end

