-- ==== Sys2Proof/Tests/Slice0.lean ====
section
/-! SUPPORT. Tests of this row: the WellFormed smoke, words written out bit by bit from the spec's encodings, one or two single steps
per operation with results taken from the spec's examples, and for every statement with hypotheses a theorem that meets them. -/

namespace Sys2Proof.Tests
-- One theorem at a time: the stacks of many threads together pass the checker's memory limit.
set_option Elab.async false
open Sys2Proof Sys2Proof.Machine

/-! ## Helpers -/

/-- The operation answers a next state of which `p` holds. -/
def after (o : Outcome) (p : State → Bool) : Bool :=
  match o with
  | .next t => p t
  | _ => false

/-- The operation stops with this fault. -/
def faults (o : Outcome) (f : Fault) : Bool :=
  match o with
  | .fault r => decide (r = f)
  | _ => false

/-- The decoder answers this operation. -/
def decodes (r : Except DecodeError Instr) (i : Instr) : Bool :=
  match r with
  | .ok j => decide (j = i)
  | .error _ => false

/-- The decoder refuses with this name. -/
def rejects (r : Except DecodeError Instr) (e : DecodeError) : Bool :=
  match r with
  | .ok _ => false
  | .error d => decide (d = e)

/-- The reset state with a buffer. -/
def withBuf (b : Bytes) : State := { State.reset with buf := b }

/-- The reset state in a phase with a buffer. -/
def atPhase (p : Phase) (b : Bytes) : State := { State.reset with buf := b, ph := p }

/-- The example frame `V` of spec/41_reassembler.md. -/
def frameV : Bytes := [0xF7, 0x0E, 0x11, 0x41, 0x02, 0x01, 0x01, 0xAB, 0x06]

/-- The Light example frame of R181. -/
def frameLight : Bytes := [0xF7, 0x0E, 0x1F, 0x81, 0x04, 0x00, 0x01, 0x00, 0x01, 0x63, 0x0E]

/-- The Thermostat example frame of R182. -/
def frameThermo : Bytes := [0xF7, 0x36, 0x1F, 0x81, 0x07, 0x00, 0x01, 0x00, 0x00, 0x00, 0x95, 0x18, 0xD4, 0x56]

/-- The first Ventilation example frame of R184. -/
def frameVent : Bytes := [0xF7, 0x32, 0x01, 0x81, 0x03, 0x00, 0x01, 0x02, 0x45, 0xF6]

/-- The first GasValve example frame of R186. -/
def frameGas : Bytes := [0xF7, 0x12, 0x01, 0x81, 0x02, 0x00, 0x04, 0x63, 0xF4]

/-- The Elevator example frame of R187. -/
def frameElev : Bytes := [0xF7, 0x33, 0x01, 0x81, 0x02, 0x00, 0x44, 0x02, 0xF4]

/-- The example frame of R188, a device id of no class. -/
def frameUnknown : Bytes := [0xF7, 0x60, 0x01, 0x81, 0x02, 0x00, 0x01, 0x14, 0xF0]

/-- `s` with a byte standing at the rx port, or none, and a flush requested or not. -/
def offering (flush : Bool) (byte : Option Byte) (s : State) : State :=
  { s with host := { s.host with flushPin := flush, rxPin := byte } }

/-! ## WellFormed smoke: an ill-formed term for each check -/

theorem test_wf_light_data_too_long : wellFormed cfgRef (.decLight 0 (List.replicate 256 0)) = false := by decide +kernel
theorem test_wf_thermo_data_too_long : wellFormed cfgRef (.decThermo 0 (List.replicate 256 0)) = false := by decide +kernel
theorem test_wf_vent_data_too_long : wellFormed cfgRef (.decVent 0 (List.replicate 256 0)) = false := by decide +kernel
theorem test_wf_gas_data_too_long : wellFormed cfgRef (.decGas 0 (List.replicate 256 0)) = false := by decide +kernel
theorem test_wf_elev_data_too_long : wellFormed cfgRef (.decElev 0 (List.replicate 256 0)) = false := by decide +kernel
theorem test_wf_ignore_data_too_long : wellFormed cfgRef (.decIgnore 1 0 2 (List.replicate 256 0)) = false := by decide +kernel
theorem test_wf_ignore_of_a_known_key : wellFormed cfgRef (.decIgnore 0x0E 0 0x81 []) = false := by decide +kernel
theorem test_wf_data_of_255_bytes : wellFormed cfgRef (.decLight 0 (List.replicate 255 0)) = true := by decide +kernel

theorem test_cfg_ref : cfgRef.wf = true := by decide +kernel
theorem test_cfg_two_classes_one_id : { cfgRef with devId := { cfgRef.devId with elevator := 0x0E } }.wf = false := by
  decide +kernel
theorem test_cfg_status_is_a_command : { cfgRef with cmdStatus := 0x42 }.wf = false := by decide +kernel
theorem test_cfg_thermostat_commands_equal : { cfgRef with cmdThAway := 0x43 }.wf = false := by decide +kernel
theorem test_cfg_ventilation_commands_equal : { cfgRef with cmdVentSpeed := 0x41 }.wf = false := by decide +kernel
theorem test_cfg_ventilation_codes_equal : { cfgRef with ventAuto := 0x01 }.wf = false := by decide +kernel
theorem test_cfg_bound_too_small : { cfgRef with bufBound := 261 }.wf = false := by decide +kernel

/-! ## Decoding: words written out from the spec's encodings (R94, R96, R97, R81) -/

theorem test_decode_reset : decodes (decode cfgRef .rst) .bfeReset = true := by decide +kernel
theorem test_decode_flush : decodes (decode cfgRef .flush) .frsFlush = true := by decide +kernel
theorem test_decode_feed : decodeTableWord 8 0b11110111 = some (.frsFeedB 0xF7) := by decide +kernel
theorem test_decode_guard : decodes (decode cfgRef (.unit .guard)) .frsGuard = true := by decide +kernel
theorem test_decode_s1 : decodeTableWord 8 0b001 = some .frsS1 := by decide +kernel
theorem test_decode_s2 : decodeTableWord 8 0b010 = some .frsS2 := by decide +kernel
theorem test_decode_s3 : decodeTableWord 8 0b011 = some .frsS3 := by decide +kernel
theorem test_decode_s4 : decodeTableWord 8 0b100 = some .frsS4 := by decide +kernel
theorem test_decode_s5 : decodeTableWord 8 0b101 = some .frsS5 := by decide +kernel
theorem test_decode_s6 : decodeTableWord 8 0b110 = some .frsS6 := by decide +kernel
theorem test_decode_phase_q : rejects (decode cfgRef (.phase 0b000)) .idlePhase = true := by decide +kernel
theorem test_decode_phase_111 : rejects (decode cfgRef (.phase 0b111)) .unusedPhase = true := by decide +kernel
theorem test_decode_chk_xor : decodes (decode cfgRef (.unit (.chkXor [1]))) (.chkXor [1]) = true := by decide +kernel
theorem test_decode_chk_add : decodes (decode cfgRef (.unit (.chkAdd [1]))) (.chkAdd [1]) = true := by decide +kernel
theorem test_decode_chk_validate : decodes (decode cfgRef (.unit (.chkValidate [1]))) (.chkValidate [1]) = true := by
  decide +kernel
theorem test_decode_chk_gen : decodes (decode cfgRef (.unit (.chkGen [1]))) (.chkGen [1]) = true := by decide +kernel
theorem test_decode_light : decodes (decode cfgRef (.frame frameLight)) (.decLight 0x1F [0x00, 0x01, 0x00, 0x01]) = true := by
  decide +kernel
theorem test_decode_thermo :
    decodes (decode cfgRef (.frame frameThermo)) (.decThermo 0x1F [0x00, 0x01, 0x00, 0x00, 0x00, 0x95, 0x18]) = true := by
  decide +kernel
theorem test_decode_vent : decodes (decode cfgRef (.frame frameVent)) (.decVent 0x01 [0x00, 0x01, 0x02]) = true := by
  decide +kernel
theorem test_decode_gas : decodes (decode cfgRef (.frame frameGas)) (.decGas 0x01 [0x00, 0x04]) = true := by decide +kernel
theorem test_decode_elev : decodes (decode cfgRef (.frame frameElev)) (.decElev 0x01 [0x00, 0x44]) = true := by decide +kernel
theorem test_decode_ignore : decodes (decode cfgRef (.frame frameUnknown)) (.decIgnore 0x60 0x01 0x81 [0x00, 0x01]) = true := by
  decide +kernel
theorem test_decode_echoed_command : decodes (decode cfgRef (.frame frameV)) (.decIgnore 0x0E 0x11 0x41 [0x01, 0x01]) = true := by
  decide +kernel
theorem test_decode_frame_too_short : rejects (decode cfgRef (.frame [0xF7])) .shortFrame = true := by decide +kernel
theorem test_decode_frame_wrong_sync :
    rejects (decode cfgRef (.frame [0x00, 0x0E, 0x11, 0x41, 0x00, 0x00, 0x00])) .badSync = true := by decide +kernel
theorem test_decode_frame_wrong_length :
    rejects (decode cfgRef (.frame [0xF7, 0x0E, 0x11, 0x41, 0x01, 0x00, 0x00])) .lengthMismatch = true := by decide +kernel
theorem test_decode_header_word : decodeTableWord 40 0xF732018103 = some (.decVent 0x01 [0x00, 0x00, 0x00]) := by decide +kernel

theorem test_decode_enc_light : decodeTableWord 32 0b00000111000000010000000000000101 = some (.encLightSet true 3 1 5) := by
  decide +kernel
theorem test_decode_enc_th_mode : decodeTableWord 32 0b00101000000000100000000000000001 = some (.encThMode 0 2 1) := by
  decide +kernel
theorem test_decode_enc_th_temp : decodeTableWord 32 0b00101100000000010001011110000000 = some (.encThTemp 0 1 0x1780) := by
  decide +kernel
theorem test_decode_enc_th_away : decodeTableWord 32 0b00110000000000110000000000000001 = some (.encThAway 0 3 1) := by
  decide +kernel
theorem test_decode_enc_vent_power : decodeTableWord 32 0b01000000000000010000000000000000 = some (.encVentPower false 0 1 0) := by
  decide +kernel
theorem test_decode_enc_vent_speed : decodeTableWord 32 0b01010100000000010000000000110010 = some (.encVentSpeed 0 1 50) := by
  decide +kernel
theorem test_decode_enc_gas : decodeTableWord 32 0b01111100000000010000000000000000 = some (.encGasClose .reserved7 0 1 0) := by
  decide +kernel
theorem test_decode_enc_elev : decodeTableWord 32 0b10011000000000010000000000000000 = some (.encElevCall 0 1 0) := by
  decide +kernel
theorem test_decode_enc_no_class : rejects (decodeEnc 0b10100100000000010000000000000000) .noClass = true := by decide +kernel
theorem test_decode_enc_no_action : rejects (decodeEnc 0b10000100000000010000000000000000) .noAction = true := by decide +kernel
theorem test_decode_build :
    decodes (decode cfgRef (.unit (.build 1 2 3 [4]))) (.bldBuild 1 2 3 [4]) = true := by decide +kernel
theorem test_decode_tx_cmd :
    decodes (decode cfgRef (.cmd 0b00101100000000010001011110000000)) (.txCmd 1 .temp 0 1 0x1780) = true := by decide +kernel

/-! ## One step each, results from the spec's examples -/

/-- R31: outputs not yet taken are dropped, the buffer is empty. -/
theorem test_reset : after (exec .bfeReset { withBuf frameV with ph := .s5, txOut := [{ data := 1, eof := true }] })
    (fun t => t.buf.isEmpty && t.txOut.isEmpty && decide (t.ph = .q)) = true := by decide +kernel

/-- R150's example, first part: the partial frame is discarded and not emitted. -/
theorem test_flush : after (exec .frsFlush (withBuf (frameV.take 8))) (fun t => t.buf.isEmpty && t.emitted.isEmpty) = true := by
  decide +kernel

/-- R141's example: the ninth byte of V releases it. -/
theorem test_feed_releases_v : after (exec (.frsFeedB 0x06) (withBuf (frameV.take 8)))
    (fun t => decide (t.emitted = [frameV]) && t.buf.isEmpty && decide (t.ph = .q)) = true := by decide +kernel

/-- R142 with a bound of 3: the oldest byte goes. -/
theorem test_guard : after (exec .frsGuard { withBuf [1, 2, 3, 4] with cfg := { cfgRef with bufBound := 3 } })
    (fun t => decide (t.buf = [2, 3, 4])) = true := by decide +kernel

/-- R143's examples. -/
theorem test_s1_none : after (exec .frsS1 (atPhase .s1 [0x00, 0x55, 0xAA])) (fun t => t.buf.isEmpty && decide (t.ph = .q)) = true := by
  decide +kernel
theorem test_s1_some : after (exec .frsS1 (atPhase .s1 [0x00, 0xF7, 0x0E]))
    (fun t => decide (t.i = some 1) && decide (t.ph = .s2)) = true := by decide +kernel

/-- R144's example. -/
theorem test_s2 : after (exec .frsS2 { atPhase .s2 [0x00, 0xF7, 0x0E] with i := some 1 })
    (fun t => decide (t.buf = [0xF7, 0x0E]) && decide (t.ph = .s3)) = true := by decide +kernel

/-- R145's example. -/
theorem test_s3 : after (exec .frsS3 (atPhase .s3 [0xF7, 0x0E]))
    (fun t => decide (t.buf = [0xF7, 0x0E]) && decide (t.ph = .q)) = true := by decide +kernel

/-- R146's example, and the longest frame. -/
theorem test_s4 : after (exec .frsS4 (atPhase .s4 [0xF7, 0x0E, 0x11, 0x41, 0x02])) (fun t => decide (t.d = 2) && decide (t.L = 9)) = true := by
  decide +kernel
theorem test_s4_no_wrap : after (exec .frsS4 (atPhase .s4 [0xF7, 0, 0, 0, 0xFF])) (fun t => decide (t.L = 262)) = true := by
  decide +kernel

/-- R147's example. -/
theorem test_s5 : after (exec .frsS5 { atPhase .s5 (frameV.take 8) with L := 9 })
    (fun t => decide (t.buf = frameV.take 8) && decide (t.ph = .q)) = true := by decide +kernel

/-- R148's example of a candidate whose last byte is wrong. -/
theorem test_s6_invalid : after (exec .frsS6 { atPhase .s6 (frameV.take 8 ++ [0x07]) with L := 9 })
    (fun t => t.emitted.isEmpty && decide (t.buf = [0x0E, 0x11, 0x41, 0x02, 0x01, 0x01, 0xAB, 0x07])) = true := by decide +kernel

/-- The examples of R121, R122, R123, R124. -/
theorem test_chk_xor : after (exec (.chkXor (frameV.take 7)) State.reset) (fun t => decide (t.ret = .byte 0xAB)) = true := by
  decide +kernel
theorem test_chk_add : after (exec (.chkAdd (frameV.take 8)) State.reset) (fun t => decide (t.ret = .byte 0x06)) = true := by
  decide +kernel
theorem test_chk_validate : after (exec (.chkValidate frameV) State.reset) (fun t => decide (t.ret = .truth true)) = true := by
  decide +kernel
theorem test_chk_validate_xor_fails :
    after (exec (.chkValidate (frameV.take 7 ++ [0xAA, 0x05])) State.reset) (fun t => decide (t.ret = .truth false)) = true := by
  decide +kernel
theorem test_chk_gen : after (exec (.chkGen [0xF7, 0x00, 0x00, 0x00, 0x00]) State.reset)
    (fun t => decide (t.ret = .bytes [0xF7, 0x00, 0x00, 0x00, 0x00, 0xF7, 0xEE])) = true := by decide +kernel

/-- R181's example. -/
theorem test_dec_light : after (exec (.decLight 0x1F [0x00, 0x01, 0x00, 0x01]) State.reset)
    (fun t => decide (t.pushed = [flagState .light 1 true, flagState .light 2 false, flagState .light 3 true])) = true := by
  decide +kernel

/-- R182's example, with both orders of the pair. -/
theorem test_dec_thermo : after (exec (.decThermo 0x1F [0x00, 0x01, 0x00, 0x00, 0x00, 0x95, 0x18]) State.reset)
    (fun t => decide (t.pushed = [{ key := { cls := .thermostat, zone := 1 }, value := .thermo .heat .none 43 48 }])) = true := by
  decide +kernel
theorem test_dec_thermo_swapped :
    after (exec (.decThermo 0x1F [0x00, 0x01, 0x00, 0x00, 0x00, 0x95, 0x18]) (State.resetWith { cfgRef with tempOrder := .firstTarget }))
    (fun t => decide (t.pushed = [{ key := { cls := .thermostat, zone := 1 }, value := .thermo .heat .none 48 43 }])) = true := by
  decide +kernel

/-- R184's examples with and without the sentinel. -/
theorem test_dec_vent : after (exec (.decVent 0x01 [0x00, 0x01, 0x02]) State.reset)
    (fun t => decide (t.pushed = [{ key := { cls := .ventilation, zone := 1 }, value := .vent true 66 .medium }])) = true := by
  decide +kernel
theorem test_dec_vent_auto : after (exec (.decVent 0x01 [0x00, 0x01, 0x02, 0x04]) State.reset)
    (fun t => decide (t.pushed = [{ key := { cls := .ventilation, zone := 1 }, value := .vent true 50 .auto }])) = true := by
  decide +kernel

/-- R186's and R187's examples. -/
theorem test_dec_gas : after (exec (.decGas 0x01 [0x00, 0x02]) State.reset)
    (fun t => decide (t.pushed = [flagState .gasValve 1 false])) = true := by decide +kernel
theorem test_dec_elev : after (exec (.decElev 0x01 [0x00, 0x44]) State.reset)
    (fun t => decide (t.pushed = [flagState .elevator 1 true])) = true := by decide +kernel

/-- R188's example. -/
theorem test_dec_ignore : after (exec (.decIgnore 0x60 0x01 0x81 [0x00, 0x01]) State.reset) (fun t => t.pushed.isEmpty) = true := by
  decide +kernel

/-- What an ENC row returns, as the four inputs of BLD.BUILD. -/
def returnsArgs (o : Outcome) (dev sub cmd : Byte) (payload : Bytes) : Bool :=
  after o fun t => decide (t.ret = .args { dev := dev, sub := sub, cmd := cmd, payload := payload })

/-- What an operation refuses with. -/
def refusesWith (o : Outcome) (r : Reason) : Bool := after o fun t => decide (t.ret = .refused r)

/-- The examples of R213 to R222. -/
theorem test_enc_light : returnsArgs (exec (.encLightSet true 0 1 0) State.reset) 0x0E 0x11 0x41 [0x01, 0x01] = true := by
  decide +kernel
theorem test_enc_light_overflow : refusesWith (exec (.encLightSet true 0 0xF0 0) State.reset) .subOverflow = true := by decide +kernel
theorem test_enc_th_mode : returnsArgs (exec (.encThMode 0 2 1) State.reset) 0x36 0x12 0x43 [0x01, 0x01] = true := by decide +kernel
theorem test_enc_th_temp : returnsArgs (exec (.encThTemp 0 1 0x1780) State.reset) 0x36 0x11 0x44 [0x01, 0x97] = true := by
  decide +kernel
theorem test_enc_th_temp_too_hot : refusesWith (exec (.encThTemp 0 1 0x8000) State.reset) .badArg = true := by decide +kernel
theorem test_enc_th_away : returnsArgs (exec (.encThAway 0 3 1) State.reset) 0x36 0x13 0x45 [0x01, 0x01] = true := by decide +kernel
theorem test_enc_vent_power : returnsArgs (exec (.encVentPower true 0 1 0) State.reset) 0x32 0x01 0x41 [0x01, 0x01] = true := by
  decide +kernel
theorem test_enc_vent_speed : returnsArgs (exec (.encVentSpeed 0 1 50) State.reset) 0x32 0x01 0x42 [0x01, 0x04] = true := by
  decide +kernel
theorem test_enc_vent_speed_101 : refusesWith (exec (.encVentSpeed 0 1 101) State.reset) .badArg = true := by decide +kernel
theorem test_enc_gas : returnsArgs (exec (.encGasClose .on 0 1 0) State.reset) 0x12 0x01 0x41 [0x01, 0x00] = true := by decide +kernel
theorem test_enc_gas_zone_0 : refusesWith (exec (.encGasClose .on 0 0 0) State.reset) .badZone = true := by decide +kernel
theorem test_enc_elev : returnsArgs (exec (.encElevCall 0 1 0) State.reset) 0x33 0x01 0x41 [0x01, 0x10] = true := by decide +kernel

/-- R241's example, and R242's refusal. -/
theorem test_build : after (exec (.bldBuild 0x0E 0x11 0x41 [0x01, 0x01]) State.reset) (fun t => decide (t.ret = .bytes frameV)) = true := by
  decide +kernel
theorem test_build_too_long : refusesWith (exec (.bldBuild 0 0 0 (List.replicate 256 0)) State.reset) .badLength = true := by
  decide +kernel

/-- R223's example delivers the frame of R215. -/
theorem test_tx_cmd : after (exec (.txCmd 1 .temp 0 1 0x1780) State.reset)
    (fun t => decide (t.txTaken.map TxBeat.data = [0xF7, 0x36, 0x11, 0x44, 0x02, 0x01, 0x97, 0x00, 0x1C])) = true := by decide +kernel
/-! ## Fetching: the very next step runs the row placed -/

theorem test_fetch_feed : after (step (State.reset.withFetchWord 8 0xF7)) (fun t => decide (t.buf = [0xF7])) = true := by decide +kernel
/-- S6 on the shortest frame (R124's example, what log 11 places). -/
theorem test_fetch_s6 : after (step (State.reset.withFetchWord 8 6))
    (fun t => decide (t.emitted = [[0xF7, 0x00, 0x00, 0x00, 0x00, 0xF7, 0xEE]]) && t.buf.isEmpty) = true := by decide +kernel
theorem test_fetch_enc : returnsArgs (step (State.reset.withFetchWord 32 0x30030001)) 0x36 0x13 0x45 [0x01, 0x01] = true := by
  decide +kernel
/-- A reserved class tag pulses `cmd_refused` with the code of R101. -/
theorem test_fetch_tx : after (step (State.reset.withFetchWord 32 0xA4010000)) (fun t => decide (cmdReasonPort t = some 1)) = true := by
  decide +kernel
theorem test_fetch_frame : after (step (State.reset.withFetchWord 40 0xF733018102))
    (fun t => decide (t.pushed = [flagState .elevator 1 false])) = true := by decide +kernel

/-! ## One cycle at the ports -/

/-- R100, R299: a command and a byte offered in one cycle are both taken in it. -/
theorem test_cycle_takes_command_and_byte :
    after (step { offering false (some 0xF7) State.reset with host := { hostQuiet with rxPin := some 0xF7, cmdPin := some 0x04010000 } })
      (fun t => t.host.rxPin.isNone && t.host.cmdPin.isNone && decide (t.buf = [0xF7]) && decide (t.txTaken.map TxBeat.data = frameV)) =
      true := by decide +kernel

/-- R150, D29: a flush requested while a byte stands untaken is taken before it, and the byte stays. -/
theorem test_flush_overtakes_a_standing_byte :
    after (step { withBuf [0xF7] with host := { hostQuiet with rxPin := some 0x0E, flushIn := [true] } })
      (fun t => t.buf.isEmpty && decide (t.host.rxPin = some 0x0E) && !t.host.flushPin) = true := by decide +kernel

/-- R293: a reset under new straps. -/
theorem test_reset_takes_the_straps :
    after (step { withBuf [0xF7] with
        host := { hostQuiet with levels := { levelsReset with rst := true, strap := some { cfgRef with bufBound := 262 } } } })
      (fun t => t.buf.isEmpty && decide (t.cfg.bufBound = 262)) = true := by decide +kernel

/-- R29, R141: with a busy frame consumer the bytes behind the frame are issued and wait. -/
theorem test_feed_chunk_waits : after
    (feedChunk (frameV ++ [0x01]) { State.reset with host := { hostQuiet with levels := { levelsReset with frmReady := false } } })
    (fun t => decide (t.emitted = [frameV]) && decide (t.host.issued = [.byte 0x01])) = true := by decide +kernel

/-- R58, R297: behind a loop that waits, FEED, CONNECT, FEED keep their order. -/
theorem test_issue_order : after
    (andThen (andThen (feedChunk [0x01] { atPhase .s3 [0xF7] with host := hostQuiet }) connect) (feedChunk [0x02]))
    (fun t => decide (t.host.issued = [.byte 0x01, .flush, .byte 0x02])) = true := by decide +kernel

/-- R58, R307: after a CONNECT that waits, FEED at phase Q joins nothing to the old buffer. -/
theorem test_feed_after_connect :
    after (andThen (andThen (connect (atPhase .s3 [0xF7])) step) (feedChunk [0x0E]))
      (fun t => decide (t.ph = .q) && decide (t.buf = [0xF7]) && decide (t.host.issued = [.byte 0x0E])) = true := by decide +kernel

/-! ## Witnesses: for every statement with hypotheses, values that meet them -/

/-- The reset state with no consumer ready. -/
def consumersBusy : State :=
  { State.reset with host := { hostQuiet with levels := { levelsReset with frmReady := false, stReady := false, txReady := false } } }

/-- The reset state with rst = 1 standing. -/
def underReset : State := { State.reset with host := { hostQuiet with levels := { levelsReset with rst := true } } }

/-- The agent selects this word. -/
def selects (sel : State → Option (OpWord × State)) (s : State) (o : OpWord) : Bool :=
  match sel s with
  | some (w, _) => decide (w = o)
  | none => false

/-- The agent selects nothing. -/
def idles (sel : State → Option (OpWord × State)) (s : State) : Bool := (sel s).isNone

/-- Nothing is said about the host's inputs but that `rst = 0`, no call and no command stand. -/
def onlyReceives (c : State) : Bool :=
  c.cfg.wf && !c.host.levels.rst && decide (c.host.call = none) && decide (c.host.cmdPin = none)

/-- O3, its clauses for short and for two-byte sequences. -/
theorem witness_ChkValidateTestsBothChecksums : ([0xF7] : Bytes).length < 2 ∧ 2 ≤ ([0x00, 0x00] : Bytes).length := by decide +kernel

/-- O5. -/
theorem witness_GenerationValidatesAndIsUnique : 2 ≤ ([0x00, 0x00] : Bytes).length ∧ 2 ≤ frameV.length := by decide +kernel

/-- O6, single flips: the first bit of the first byte, the last bit of the last byte. -/
theorem witness_SingleBitErrors : valid frameV = true ∧ frameV[0]? = some 0xF7 ∧ frameV[8]? = some 0x06 ∧ 0 < 8 ∧ 7 < 8 := by
  decide +kernel

/-- O6, double flips: bit 7 of bytes 1 and 2; bit 0 of bytes 0 and 1, which differ there. -/
theorem witness_DoubleBitErrors : valid frameV = true ∧ 1 < frameV.length - 2 ∧ 6 < frameV.length - 2 ∧ frameV[1]? = some 0x0E ∧
    frameV[2]? = some 0x11 ∧ frameV[0]? = some 0xF7 ∧ (0xF7 : Byte).getLsbD 0 ≠ (0x0E : Byte).getLsbD 0 := by decide +kernel

/-- O7, O58 and every hypothesis on a configuration. -/
theorem witness_ResetStateIsEmptyQuiescentAndIdle : cfgRef.wf = true := by decide +kernel

/-- O9: a flush requested with and without a byte standing; with no command, and with one that waits for TX. CONNECT on a free
receive side, at a phase at which the loop waits, behind a standing byte, a standing flush and an issued byte, and under rst = 1. -/
theorem witness_FlushGoesBeforeAByte :
    (∀ o ∈ [none, some (0xF7 : Byte)], let c := cycle (offering true o State.reset)
      onlyReceives c = true ∧ c.ph = .q ∧ c.host.flushPin = true ∧ c.host.rxPin = o) ∧
    (let c := cycle { State.reset with
        txOut := [{ data := 0, eof := false }, { data := 1, eof := true }],
        host := { hostQuiet with flushPin := true, cmdPin := some 5 } }
     c.cfg.wf = true ∧ c.host.levels.rst = false ∧ c.host.call = none ∧ c.txOut ≠ [] ∧ c.ph = .q ∧ c.host.flushPin = true) ∧
    rxFree State.reset = true ∧ rxFree { consumersBusy with ph := .s1, frmOut := frameBeats frameV } = false ∧
    rxFree (offering false (some 0x01) State.reset) = false ∧ rxFree (offering true none State.reset) = false ∧
    rxFree (issue [.byte 0x01] State.reset) = false ∧ rxFree underReset = false := by decide +kernel

/-- R58: CONNECT before FRS.S3 leaves the buffer; the engine reaches phase Q with the flush at its port. -/
theorem test_connect_waits :
    after (andThen (connect (atPhase .s3 [0xF7])) step)
      (fun t => decide (t.ph = .q) && decide (t.buf = [0xF7]) && t.host.flushPin) = true := by decide +kernel

/-- O10: no frame from an empty buffer; one from the first eight bytes of V. -/
theorem witness_FeedByteComputesExtract :
    (rxIdle State.reset ∧ rxConsumersReady State.reset ∧
      extract (guardBuf State.reset.cfg.bufBound (State.reset.buf ++ [0xF7])) = ([0xF7], [])) ∧
    (rxIdle (withBuf (frameV.take 8)) ∧ rxConsumersReady (withBuf (frameV.take 8)) ∧
      extract (guardBuf (withBuf (frameV.take 8)).cfg.bufBound ((withBuf (frameV.take 8)).buf ++ [0x06])) = ([], [frameV])) :=
  ⟨⟨⟨rfl, rfl, rfl, rfl⟩, ⟨rfl, rfl⟩, by decide +kernel⟩, ⟨rfl, rfl, rfl, rfl⟩, ⟨rfl, rfl⟩, by decide +kernel⟩

/-- O11: the ninth byte of V with a busy frame consumer. -/
theorem witness_FeedByteWaitsForTheFrameConsumer :
    let s := { consumersBusy with buf := frameV.take 8 }
    rxIdle s ∧ s.host.levels.frmReady = false ∧ extract (guardBuf s.cfg.bufBound (s.buf ++ [0x06])) = ([], frameV :: []) :=
  ⟨⟨rfl, rfl, rfl, rfl⟩, rfl, by decide +kernel⟩

/-- The reset state with the frame consumer ready and the state consumer not. -/
def stateConsumerBusy : State :=
  { State.reset with host := { hostQuiet with levels := { levelsReset with stReady := false } } }

/-- Two frames behind a false sync of length 31 whose last byte releases both: V, which decodes to nothing, and the Light example. -/
def twoFramesHeld : Bytes := [0xF7, 0x00, 0x00, 0x00, 0x18] ++ frameV ++ frameLight ++ [0x00, 0x00, 0x00, 0x00, 0x00]

/-- O12: a byte that releases a frame without DeviceStates and one with; the ninth byte of V; its eighth, with both consumers busy. -/
theorem witness_FeedByteWaitsForTheStateConsumer :
    (let s := { stateConsumerBusy with buf := twoFramesHeld }
     rxIdle s ∧ s.host.levels.frmReady = true ∧ s.host.levels.stReady = false ∧
     extract (guardBuf s.cfg.bufBound (s.buf ++ [0x00])) = ([], [frameV] ++ frameLight :: []) ∧
     (∀ g ∈ [frameV], statesOf s.cfg g = []) ∧ statesOf s.cfg frameLight ≠ []) ∧
    (let s := { stateConsumerBusy with buf := frameV.take 8 }
     rxIdle s ∧ s.host.levels.frmReady = true ∧ extract (guardBuf s.cfg.bufBound (s.buf ++ [0x06])) = ([], [frameV]) ∧
     ∀ g ∈ [frameV], statesOf s.cfg g = []) ∧
    (let s := { consumersBusy with buf := frameV.take 7 }
     rxIdle s ∧ s.host.levels.frmReady = false ∧ extract (guardBuf s.cfg.bufBound (s.buf ++ [0xAB])) = (frameV.take 8, [])) :=
  ⟨⟨⟨rfl, rfl, rfl, rfl⟩, rfl, rfl, by decide +kernel, by decide +kernel, by decide +kernel⟩,
    ⟨⟨rfl, rfl, rfl, rfl⟩, rfl, by decide +kernel, by decide +kernel⟩, ⟨rfl, rfl, rfl, rfl⟩, rfl, by decide +kernel⟩

/-- TX delivers a frame of two beats to a host that is not ready, while a command stands. -/
def txBusy : State :=
  { State.reset with
    txOut := [{ data := 0, eof := false }, { data := 1, eof := true }],
    host := { hostQuiet with levels := { levelsReset with txReady := false }, cmdPin := some 5 } }

/-- O13: everything offered at phase S3, where the byte and the flush stay, and at phase Q; a command that is held while TX delivers;
and a cycle with rst = 1, which takes the flush and the command and leaves the byte, and with no flush the byte. -/
theorem witness_OffersAreTakenExactlyAtTheHandshake :
    (let s := offering true (some 0xF7) (atPhase .s3 [0xF7])
     (cycle s).ph ≠ .q ∧ after (step s) (fun t => t.host.flushPin && decide (t.host.rxPin = some 0xF7)) = true) ∧
    after (step (offering true (some 0xF7) State.reset)) (fun t => !t.host.flushPin && decide (t.host.rxPin = some 0xF7)) = true ∧
    ((cycle txBusy).txOut ≠ [] ∧ (cycle txBusy).host.cmdPin = some 5 ∧
      after (step txBusy) (fun t => decide (t.host.cmdPin = some 5)) = true) ∧
    (let s := { State.reset with host := { hostQuiet with levels := { levelsReset with rst := true }, cmdPin := some 5 } }
     (cycle s).host.levels.rst = true ∧ cmdReady (cycle s) = true ∧
     after (step (offering true (some 0xF7) s))
       (fun t => !t.host.flushPin && decide (t.host.rxPin = some 0xF7) && decide (t.host.cmdPin = none)) = true ∧
     after (step (offering false (some 0xF7) s)) (fun t => decide (t.host.rxPin = none)) = true) := by
  decide +kernel

/-- O14: one byte over the bound, exactly the bound, and the largest quiescent buffer. -/
theorem witness_GuardDiscardsTheOldestExcess :
    2 < (withBuf [1, 2, 3]).buf.length ∧ (withBuf [1, 2, 3]).buf.length ≤ 3 ∧ cfgRef.wf = true ∧
    (withBuf (List.replicate 261 0xF7)).buf.length ≤ 261 := by decide +kernel

/-- O15: no sync byte; the first sync byte at index 0; and one behind another byte. -/
theorem witness_SyncSearchFindsTheFirstSyncByte :
    (∀ b ∈ (withBuf [0x00]).buf, b ≠ 0xF7) ∧ (withBuf [0xF7]).buf[0]? = some 0xF7 ∧ (∀ j < 0, (withBuf [0xF7]).buf[j]? ≠ some 0xF7) ∧
    (withBuf [0x00, 0xF7]).buf[1]? = some 0xF7 ∧ (∀ j < 1, (withBuf [0x00, 0xF7]).buf[j]? ≠ some 0xF7) := by decide +kernel

/-- O16: nothing to drop and everything to drop. -/
theorem witness_BytesBeforeTheSyncByteAreDropped :
    (withBuf [0xF7]).i = some 0 ∧ 0 ≤ (withBuf [0xF7]).buf.length ∧
    ({ withBuf [0x00] with i := some 1 } : State).i = some 1 ∧ 1 ≤ (withBuf [0x00]).buf.length ∧
    find SYNC [0x00, 0xF7] = some 1 := by decide +kernel

/-- O17: 4 and 5 bytes; 8 and 9 bytes of a frame of 9; the smallest and the largest length byte. -/
theorem witness_HeaderLengthAndCandidateSteps :
    (withBuf (frameV.take 4)).buf.length < 5 ∧ 5 ≤ (withBuf (frameV.take 5)).buf.length ∧
    (withBuf (frameV.take 8)).buf.length < 9 ∧ 9 ≤ (withBuf frameV).buf.length ∧
    (withBuf [0xF7, 0, 0, 0, 0x00]).buf[4]? = some 0x00 ∧ (withBuf [0xF7, 0, 0, 0, 0xFF]).buf[4]? = some 0xFF := by decide +kernel

/-- O18: a valid candidate (the shortest frame, L = 7) and an invalid one. -/
theorem witness_CandidateIsEmittedOrOneByteIsDropped :
    let s := { withBuf [0xF7, 0x00, 0x00, 0x00, 0x00, 0xF7, 0xEE] with L := 7 }
    let u := { withBuf [0xF7, 0x00, 0x00, 0x00, 0x00, 0xF7, 0xEF] with L := 7 }
    7 ≤ s.L ∧ s.L ≤ s.buf.length ∧ valid (s.buf.take s.L) = true ∧ 7 ≤ u.L ∧ u.L ≤ u.buf.length ∧ valid (u.buf.take u.L) = false := by
  decide +kernel

/-- O19: one state for each stop. -/
theorem witness_MicroStepsStopBeyondTheBuffer :
    ({ State.reset with i := none } : State).i = none ∧ ({ State.reset with i := some 1 } : State).buf.length < 1 ∧
    (withBuf (frameV.take 4)).buf.length < 5 ∧ ({ State.reset with L := 1 } : State).buf.length < ({ State.reset with L := 1 } : State).L := by
  decide +kernel

/-- No strap stands in the quiet outside agents. -/
theorem quiet_host_ok : strapsOk hostQuiet := by
  intro l hl c hc
  simp only [hostQuiet, levelsReset, List.mem_cons, List.not_mem_nil, or_false] at hl
  subst hl
  exact absurd hc (by simp)

/-- O20, O22, O57: a state of the invariant at phase S6, the complete frame V at the head of the buffer. -/
theorem witness_Invariant_at_S6 :
    let s := { atPhase .s6 frameV with d := 2, L := 9 }
    Inv s ∧ s.ph ≠ .q :=
  ⟨⟨by decide +kernel, by decide +kernel,
    ⟨by unfold startsWithSync; decide +kernel, by decide +kernel, by decide +kernel, by decide +kernel, rfl, rfl, rfl⟩,
    (fun _ h => nomatch h), (fun _ h => nomatch h), by decide +kernel, quiet_host_ok⟩, by decide +kernel⟩

/-- O20, O22, O57: a state of the invariant at phase S1, one byte just appended. -/
theorem witness_Invariant_at_S1 : Inv (atPhase .s1 [0x00]) ∧ (atPhase .s1 [0x00]).ph ≠ .q :=
  ⟨⟨by decide +kernel, by decide +kernel, trivial, (fun _ h => nomatch h), (fun _ h => nomatch h), by decide +kernel,
    quiet_host_ok⟩, by decide +kernel⟩

/-- O22: quiescent buffers of the three cases. -/
theorem witness_QuiescentBuffersAreTheThreeCases : ∀ s ∈ [[], [0xF7], frameV.take 8], extract s = (s, []) := by decide +kernel

/-- O23: V cut in two. -/
theorem witness_ChunkingDoesNotMatter :
    extract [] = ([], []) ∧ extract ([] ++ frameV.take 1) = ([0xF7], []) ∧ extract ([0xF7] ++ frameV.drop 1) = ([], [frameV]) := by
  decide +kernel

/-- O24: consumers ready; a loop that waits; and, at phase Q, a byte, a flush and an issued operation that wait, and rst = 1. -/
theorem witness_FeedChunkExtractsTheWholeChunk :
    (State.reset.cfg.wf = true ∧ rxIdle State.reset ∧ rxFree State.reset = true ∧ quiescent State.reset.buf = true ∧
      rxConsumersReady State.reset ∧ extract (State.reset.buf ++ frameV) = ([], [frameV])) ∧
    (∀ s ∈ [atPhase .s1 [], offering false (some 0x01) State.reset, offering true none State.reset, issue [.flush] State.reset,
        underReset],
      rxFree s = false) :=
  ⟨⟨by decide +kernel, ⟨rfl, rfl, rfl, rfl⟩, rfl, by decide +kernel, ⟨rfl, rfl⟩, by decide +kernel⟩, by decide +kernel⟩

/-- O25, and the second part of O46. -/
theorem witness_EmittedFramesAreWellFormed : frameV ∈ (extract frameV).2 := by decide +kernel

/-- O26: some noise and none. -/
theorem witness_FrameIsFoundAfterNoise :
    State.reset.cfg.wf = true ∧ rxIdle State.reset ∧ rxFree State.reset = true ∧ State.reset.buf = [] ∧
    rxConsumersReady State.reset ∧
    (∀ n ∈ [[], [0x00, 0x55]], ∀ b ∈ n, b ≠ (0xF7 : Byte)) ∧ wellFormedFrame frameV = true :=
  ⟨by decide +kernel, ⟨rfl, rfl, rfl, rfl⟩, rfl, rfl, ⟨rfl, rfl⟩, by decide +kernel, by decide +kernel⟩

/-- O27: cut after the first byte and before the last. -/
theorem witness_SplitFrameIsEmittedAfterTheSecondPart :
    State.reset.cfg.wf = true ∧ rxIdle State.reset ∧ rxFree State.reset = true ∧ State.reset.buf = [] ∧
    rxConsumersReady State.reset ∧
    (∀ k ∈ [1, 8], frameV.take k ≠ [] ∧ frameV.drop k ≠ [] ∧ wellFormedFrame (frameV.take k ++ frameV.drop k) = true) :=
  ⟨by decide +kernel, ⟨rfl, rfl, rfl, rfl⟩, rfl, rfl, ⟨rfl, rfl⟩, by decide +kernel⟩

/-- O28: the longest continuation. -/
theorem witness_FalseSyncHoldsFramesBack : (List.replicate 256 (0xF7 : Byte)).length ≤ 256 := by decide +kernel

/-- O29: the smallest ring, neither empty nor full; a full one; and one byte too small. -/
theorem witness_RingBufferRealisesTheBuffer :
    let r : Ring := { ram := List.replicate 262 1, hd := 261, cnt := 261 }
    ringOk r = true ∧ (ringBuf r).length ≤ 261 ∧ r.cnt < r.ram.length ∧ 261 ≤ r.cnt ∧ 0 ≤ r.cnt ∧ ringOk { r with cnt := 262 } = true ∧
    (List.replicate 262 (0 : Byte)).length = r.ram.length ∧ 261 < (List.replicate 262 (0 : Byte)).length ∧
    ringOk { ram := List.replicate 261 1, hd := 0, cnt := 0 } = false := by decide +kernel

/-- O30: a frame for each clause. -/
theorem witness_DecodersAreSelectedByDeviceAndCommand :
    cfgRef.wf = true ∧
    (∀ f ∈ [frameLight, frameThermo, frameVent, frameGas, frameElev, frameUnknown, frameV], wellFormedFrame f = true) ∧
    (∀ f ∈ [frameLight, frameThermo, frameVent, frameGas, frameElev], f.getD 3 0 = cfgRef.cmdStatus) ∧
    [frameLight, frameThermo, frameVent, frameGas, frameElev].map (fun f => f.getD 1 0) = cfgRef.deviceIds ∧
    frameUnknown.getD 1 0 ∉ cfgRef.deviceIds ∧ frameV.getD 3 0 ≠ cfgRef.cmdStatus := by decide +kernel

/-- O32: the first zone. -/
theorem witness_LightStatusGivesOneStatePerZone : 1 ≤ 1 ∧ ([0x00, 0x01] : Bytes)[1]? = some 0x01 := by decide +kernel

/-- O34: too short; the sentinel; and, without it, each mode code and none of them. -/
theorem witness_VentilationStatusFollowsTheModeTable :
    cfgRef.wf = true ∧ ([0x00, 0x01] : Bytes).length < 3 ∧ 3 ≤ ([0x00, 0x01, 0x02] : Bytes).length ∧
    (cfgRef.ventTable = .level3Auto ∧ ([0x00, 0x01, 0x02, 0x04] : Bytes)[3]? = some 0x04) ∧
    ¬(cfgRef.ventTable = .level3Auto ∧ ([0x00, 0x01, 0x02] : Bytes)[3]? = some 0x04) ∧
    ([0x00, 0x01, 0x01] : Bytes).getD 2 0 = cfgRef.ventLow ∧ ([0x00, 0x01, 0x02] : Bytes).getD 2 0 = cfgRef.ventMed ∧
    ([0x00, 0x01, 0x03] : Bytes).getD 2 0 = cfgRef.ventHigh ∧
    ([0x00, 0x01, 0x00] : Bytes).getD 2 0 ∉ [cfgRef.ventLow, cfgRef.ventMed, cfgRef.ventHigh] := by decide +kernel

/-- O35: one byte and two. -/
theorem witness_GasElevatorAndUnknownFrames :
    ([0x00] : Bytes).length < 2 ∧ ([0x00, 0x04] : Bytes)[1]? = some 0x04 ∧ State.reset.stOut = [] := by decide +kernel

/-- O36: one frame of each kind of bound, with the operation it selects. -/
theorem witness_DecodersAreTotalAndBounded :
    State.reset.cfg = cfgRef ∧ (∀ f ∈ [frameLight, frameThermo, frameVent, frameUnknown], wellFormedFrame f = true) ∧
    decodes (decode cfgRef (.frame frameGas)) (.decGas 0x01 [0x00, 0x04]) = true := by decide +kernel

/-- O37: the largest argument that is encoded. -/
theorem witness_TemperatureCodingsAreInverse : (0x7FFF : BitVec 16).toNat < 2 ^ 15 := by decide +kernel

/-- O38: the largest zone and the largest percentage field. -/
theorem witness_DeviceStateWordFields : 255 < 256 ∧ 127 < 128 := by decide +kernel

/-- O39: the first and the last beat of the shortest frame, on both ports. -/
theorem witness_FrameBytesGoOutInIndexOrder :
    (frameBeats shortestFrame)[0]? = some { data := 0xF7, sof := true, eof := false } ∧
    (frameBeats shortestFrame)[6]? = some { data := 0xEE, sof := false, eof := true } ∧
    (txBeats shortestFrame)[0]? = some { data := 0xF7, eof := false } ∧
    (txBeats shortestFrame)[6]? = some { data := 0xEE, eof := true } := by decide +kernel

/-- O40: the largest zones of Light and Ventilation. -/
theorem witness_OnOffRowsReturnTheirPayload :
    (0xEF : Byte) ≠ 0 ∧ State.reset.cfg.subBase.light.toNat + (0xEF : Byte).toNat ≤ 255 ∧ (0xFF : Byte) ≠ 0 ∧
    State.reset.cfg.subBase.ventilation.toNat + (0xFF : Byte).toNat ≤ 255 := by decide +kernel

/-- O41: both sides of 128 degrees. -/
theorem witness_ThermostatRowsReturnTheirPayload :
    (0xEF : Byte) ≠ 0 ∧ State.reset.cfg.subBase.thermostat.toNat + (0xEF : Byte).toNat ≤ 255 ∧
    (0x7FFF : BitVec 16).toNat < 2 ^ 15 ∧ 2 ^ 15 ≤ (0x8000 : BitVec 16).toNat := by decide +kernel

/-- O42: the boundary values of R219, R220 and the three codes. -/
theorem witness_VentilationSpeedFollowsTheThresholds :
    (0xFF : Byte) ≠ 0 ∧ State.reset.cfg.subBase.ventilation.toNat + (0xFF : Byte).toNat ≤ 255 ∧
    100 < (101 : BitVec 16).toNat ∧ (100 : BitVec 16).toNat ≤ 100 ∧
    ((50 : BitVec 16).toNat = 50 ∧ State.reset.cfg.ventTable = .level3Auto) ∧
    (∀ pct ∈ [33, 34, 66, 67], ¬((BitVec.ofNat 16 pct).toNat = 50 ∧ State.reset.cfg.ventTable = .level3Auto)) ∧
    cfgRef.wf = true ∧ cfgRef.ventLow ∈ [cfgRef.ventLow, cfgRef.ventMed, cfgRef.ventHigh] := by decide +kernel

/-- O43: the largest zone. -/
theorem witness_GasAndElevatorRowsReturnTheirPayload :
    (0xFF : Byte) ≠ 0 ∧ State.reset.cfg.subBase.gasValve.toNat + (0xFF : Byte).toNat ≤ 255 ∧
    State.reset.cfg.subBase.elevator.toNat + (0xFF : Byte).toNat ≤ 255 := by decide +kernel

/-- O44: zone 0, and the first zone of Light whose sub-address does not fit. -/
theorem witness_EncRowsRefuseZoneAndOverflowFirst :
    decodes (decodeEnc 0x04000000) (.encLightSet true 0 0 0) = true ∧ classOfTag (crwCls 0x04000000) = some .light ∧
    crwZone 0x04000000 = 0 ∧ decodes (decodeEnc 0x04F00000) (.encLightSet true 0 0xF0 0) = true ∧
    classOfTag (crwCls 0x04F00000) = some .light ∧ crwZone 0x04F00000 ≠ 0 ∧
    255 < (State.reset.cfg.subBase.get .light).toNat + (crwZone 0x04F00000).toNat := by decide +kernel

/-- O45, O46: the longest payload, and one byte more. -/
theorem witness_BuildAssemblesTheFrame :
    (List.replicate 255 (0 : Byte)).length ≤ 255 ∧ 255 < (List.replicate 256 (0 : Byte)).length := by decide +kernel

/-- The command is accepted with these inputs of BLD.BUILD. -/
def accepts (r : Except Reason BuildArgs) (a : BuildArgs) : Bool :=
  match r with
  | .ok b => decide (b = a)
  | .error _ => false

/-- The command is refused with this reason. -/
def refuses (r : Except Reason BuildArgs) (e : Reason) : Bool :=
  match r with
  | .ok _ => false
  | .error d => decide (d = e)

/-- O47: Light zone 1 ON, as a word and as its row; class tag 5, and the elevator's action ON, which select no row. -/
theorem witness_TransmitDeliversNineBytes :
    encodeCommand State.reset.cfg 0 .on 1 0 = .ok { dev := 0x0E, sub := 0x11, cmd := 0x41, payload := [0x01, 0x01] } ∧
    decodes (decodeEnc 0x04010000) (.encLightSet true 0 1 0) = true ∧
    encodeCommand State.reset.cfg (crwCls 0x04010000) (actionOfTag (crwAct 0x04010000)) (crwZone 0x04010000) (crwArg 0x04010000) =
      .ok { dev := 0x0E, sub := 0x11, cmd := 0x41, payload := [0x01, 0x01] } ∧
    rejects (decodeEnc 0xA4010000) .noClass = true ∧ 5 ≤ (crwCls 0xA4010000).toNat ∧
    rejects (decodeEnc 0x84010000) .noAction = true ∧ (crwCls 0x84010000).toNat < 5 :=
  ⟨rfl, by decide +kernel, rfl, by decide +kernel⟩

/-- R210: a call of ENC with class tag 5 ends in BAD_CLASS, one with the elevator's action ON in BAD_ACTION; no pulse, no byte. -/
theorem test_step_enc_refuses : ∀ p ∈ [((0xA4010000 : Word32), Reason.badClass), (0x84010000, Reason.badAction)],
    after (step { State.reset with host := { hostQuiet with call := some (.enc p.1) } })
      (fun t => decide (t.ret = .refused p.2) && decide (t.cmdRefused = none) && decide (t.txTaken = []) &&
        decide (t.host.call = none)) = true := by decide +kernel

/-- Log 15: a byte string without the shape of a frame at the decoder gives no DeviceState, and the engine goes on. -/
theorem test_step_shapeless_frame :
    after (step { atPhase .s1 [] with decSlot := some [0xF7] })
      (fun t => decide (t.decSlot = none) && decide (t.pushed = []) && decide (t.stTaken = []) && decide (t.ph = .s1)) = true := by
  decide +kernel

/-- O48: a command for each refusal, and one that is accepted. -/
theorem witness_TransmitRefusesInTheOrderOfTheRule :
    5 ≤ (5 : BitVec 3).toNat ∧ refuses (encodeCommand cfgRef 5 .on 0 0) .badClass = true ∧
    classOfTag 4 = some .elevator ∧ (rowOf cfgRef .elevator .on 0).isNone = true ∧
    (rowOf cfgRef .elevator .call 0).isSome = true ∧ refuses (encodeCommand cfgRef 4 .call 0 0) .badZone = true ∧
    classOfTag 0 = some .light ∧ 255 < (cfgRef.subBase.get .light).toNat + (0xF0 : Byte).toNat ∧
    refuses (encodeCommand cfgRef 0 .on 0xF0 0) .subOverflow = true ∧
    classOfTag 2 = some .ventilation ∧ (cfgRef.subBase.get .ventilation).toNat + (0xFF : Byte).toNat ≤ 255 ∧
    refuses (encodeCommand cfgRef 2 .speed 0xFF 101) .badArg = true ∧
    accepts (encodeCommand cfgRef 2 .speed 0xFF 100) { dev := 0x32, sub := 0xFF, cmd := 0x42, payload := [0x01, 0x03] } = true := by
  decide +kernel

/-- O49: the frame of R221's example. -/
theorem test_tx_gas : after (exec (.txCmd 3 .on 0 1 0) State.reset)
    (fun t => decide (t.txTaken.map TxBeat.data = [0xF7, 0x12, 0x01, 0x41, 0x02, 0x01, 0x00, 0xA6, 0xF4])) = true := by decide +kernel

/-- O50: Light zone 1 ON, an empty BFE. -/
theorem witness_TransmittedFramesLoopBackAndDecodeToNothing :
    State.reset.cfg.wf = true ∧ rxIdle State.reset ∧ rxFree State.reset = true ∧ State.reset.buf = [] ∧
    rxConsumersReady State.reset ∧
    ∃ u : State, exec (.txCmd 0 .on 0 1 0) State.reset = .next u ∧ u.cmdRefused = none :=
  ⟨by decide +kernel, ⟨rfl, rfl, rfl, rfl⟩, rfl, rfl, ⟨rfl, rfl⟩, _, rfl, rfl⟩

/-- O51: the command and then the last byte of V. -/
theorem witness_TransmitAndReceiveCommute : ∃ t u : State,
    exec (.txCmd 0 .on 0 1 0) (withBuf (frameV.take 8)) = .next t ∧ exec (.frsFeedB 0x06) t = .next u := ⟨_, _, rfl, rfl⟩

/-- O52: RX alone selects; TX alone; a call alone; none; words of each kind that name no row; a reset; an ill-formed configuration. -/
theorem witness_StepRunsTheSelectedOperation :
    (let c := cycle (atPhase .s3 [0xF7])
     c.host.levels.rst = false ∧ c.cfg.wf = true ∧ idles callSelect c = true ∧ idles txSelect c = true ∧
     selects rxSelect c (.phase 3) = true ∧ decodes (decode cfgRef (.phase 3)) .frsS3 = true) ∧
    (let c := cycle { State.reset with host := { hostQuiet with cmdPin := some 0x04010000 } }
     idles callSelect c = true ∧ selects txSelect c (.cmd 0x04010000) = true ∧
     after (exec (.txCmd 0 .on 0 1 0) { c with host := { c.host with cmdPin := none } }) (idles rxSelect) = true) ∧
    (let c := cycle { State.reset with host := { hostQuiet with call := some .guard } }
     selects callSelect c (.unit .guard) = true ∧
     after (exec .frsGuard { c with host := { c.host with call := none } }) (fun u => idles txSelect u && idles rxSelect u) = true) ∧
    (idles callSelect (cycle State.reset) = true ∧ idles txSelect (cycle State.reset) = true ∧ idles rxSelect (cycle State.reset) = true) ∧
    (let c := cycle { State.reset with host := { hostQuiet with call := some (.enc 0xA0000000) } }
     c.host.levels.rst = false ∧ c.cfg.wf = true ∧ selects callSelect c (.unit (.enc 0xA0000000)) = true ∧
     rejects (decode c.cfg (.unit (.enc 0xA0000000))) .noClass = true ∧
     (let u := noOperation .noClass { c with host := { c.host with call := none } }
      idles txSelect u = true ∧ idles rxSelect u = true)) ∧
    (rejects (decode State.reset.cfg (.frame [0xF7])) .shortFrame = true ∧ rejects (decode State.reset.cfg (.phase 0)) .idlePhase = true ∧
      rejects (decode State.reset.cfg (.phase 7)) .unusedPhase = true) ∧
    (cycle { State.reset with host := { hostQuiet with levels := { levelsReset with rst := true } } }).host.levels.rst = true ∧
    (let c := cycle (State.resetWith { cfgRef with bufBound := 0 })
     c.host.levels.rst = false ∧ c.cfg.wf = false) := by decide +kernel

/-- O53: a byte, a flush and a command that are held; an issued byte and an issued flush on free ports and behind a standing byte. -/
theorem witness_EachReadyPortTransfersItsFirstBeat :
    (offering true (some 0xF7) State.reset).host.rxPin = some 0xF7 ∧ (offering true none State.reset).host.flushPin = true ∧
    ({ hostQuiet with cmdPin := some 5 } : HostSide).cmdPin = some 5 ∧
    (∀ op ∈ [RxOp.byte 0x01, .flush],
      (let s := issue [op] State.reset
       s.host.issued = op :: [] ∧ s.host.flushPin = false ∧ s.host.rxPin = none) ∧
      (let s := issue [op] (offering false (some 0xF7) State.reset)
       s.host.issued = op :: [] ∧ s.host.rxPin ≠ none)) := by decide +kernel

/-- O54, the clauses of a reset, of a call, of a command and of the offers at phase Q. -/
theorem witness_SelectorsOfTheOperationMap_host :
    (cycle { State.reset with host := { hostQuiet with levels := { levelsReset with rst := true } } }).host.levels.rst = true ∧
    (let c := cycle { State.reset with host := { hostQuiet with call := some .guard } }
     c.cfg.wf = true ∧ c.host.levels.rst = false ∧ c.host.call = some .guard ∧ decodes (decodeUnit .guard) .frsGuard = true) ∧
    (let c := cycle { State.reset with host := { hostQuiet with call := some (.enc 0x84010000) } }
     c.cfg.wf = true ∧ c.host.levels.rst = false ∧ c.host.call = some (.enc 0x84010000) ∧
     rejects (decodeUnit (.enc 0x84010000)) .noAction = true) ∧
    (let c := cycle { State.reset with host := { hostQuiet with cmdPin := some 5 } }
     c.cfg.wf = true ∧ c.host.levels.rst = false ∧ c.host.call = none ∧ c.host.cmdPin = some 5 ∧ c.txOut = []) ∧
    onlyReceives (cycle State.reset) = true ∧
    ((offering true none State.reset).ph = .q ∧ (offering true none State.reset).host.flushPin = true) ∧
    ((offering false (some 0xF7) State.reset).host.flushPin = false ∧ (offering false (some 0xF7) State.reset).host.rxPin = some 0xF7) ∧
    ((offering false none State.reset).host.flushPin = false ∧ (offering false none State.reset).host.rxPin = none) := by decide +kernel

/-- O54, the clauses of the engine: waiting for the frame consumer, decoding, waiting for the state consumer, a micro-step. -/
theorem witness_SelectorsOfTheOperationMap_engine :
    (let c := { consumersBusy with ph := .s1, frmOut := frameBeats frameV, decSlot := some frameV }
     c.ph ≠ .q ∧ c.frmOut ≠ []) ∧
    (let c := { consumersBusy with ph := .s1, decSlot := some frameV }
     c.ph ≠ .q ∧ c.frmOut = [] ∧ c.decSlot = some frameV ∧
     decodes (decodeFrame c.cfg frameV) (.decIgnore 0x0E 0x11 0x41 [0x01, 0x01]) = true) ∧
    (let c := { consumersBusy with ph := .s1, stOut := [0] }
     c.ph ≠ .q ∧ c.frmOut = [] ∧ c.decSlot = none ∧ c.stOut ≠ []) ∧
    (let c := { consumersBusy with ph := .s1 }
     c.ph ≠ .q ∧ c.frmOut = [] ∧ c.stOut = [] ∧ c.decSlot = none ∧ decodes (decodePhase (phaseCode c.ph)) .frsS1 = true) := by
  decide +kernel

/-- O55, O56: an operation that answers a next state; a step without reset, and one with reset and straps. -/
theorem witness_ConfigurationChangesOnlyUnderReset :
    (∃ t : State, exec (.frsFeedB 0x06) (withBuf (frameV.take 8)) = .next t) ∧
    (cycle State.reset).host.levels.rst = false ∧ (∃ t : State, step State.reset = .next t) ∧
    (cycle { State.reset with
      host := { hostQuiet with levels := { levelsReset with rst := true, strap := some cfgRef } } }).host.levels.rst = true :=
  ⟨⟨_, rfl⟩, rfl, ⟨_, rfl⟩, rfl⟩

/-- O59: the largest well-formed data region. -/
theorem witness_DecodeOfEncodeIsTheInstruction :
    cfgRef.wf = true ∧ wellFormed cfgRef (.decIgnore 0x60 0 0x81 (List.replicate 255 0)) = true := by decide +kernel

end Sys2Proof.Tests
end

section
/-! PROOFS. Where the primitives of spec/00_scope.md R17 are not defined, and what a push of DeviceStates does as one update of
the state. -/

namespace Sys2Proof.Machine

/-! ## The primitives beyond the buffer (R17, R32, R51) -/

/-- `MemRead` is not defined exactly where it would pass the end of the buffer. -/
theorem memRead_eq_none_iff (buf : Bytes) (a n : Nat) : memRead buf a n = none ↔ buf.length < a + n := by
  simp [memRead]

/-- `BufDrop` is not defined exactly where it would remove more than there is. -/
theorem bufDrop_eq_none_iff (n : Nat) (buf : Bytes) : bufDrop n buf = none ↔ buf.length < n := by
  simp [bufDrop]

/-! ## The dispatch of the micro-steps that read or remove bytes -/

theorem exec_frsS2 (s : State) : exec .frsS2 s = execFrsS2 s := rfl
theorem exec_frsS4 (s : State) : exec .frsS4 s = execFrsS4 s := rfl
theorem exec_frsS6 (s : State) : exec .frsS6 s = execFrsS6 s := rfl

/-! ## Where these micro-steps stop (log 14) -/

theorem execFrsS2_of_no_index {s : State} (hi : s.i = none) : execFrsS2 s = .fault .noSyncIndex := by
  simp only [execFrsS2, hi]

theorem execFrsS2_of_index_beyond {s : State} {k : Nat} (hi : s.i = some k) (hk : s.buf.length < k) :
    execFrsS2 s = .fault .beyondBuffer := by
  simp only [execFrsS2, hi, (bufDrop_eq_none_iff k s.buf).mpr hk]

/-- The length byte at offset 4 does not exist. -/
theorem execFrsS4_of_short {s : State} (h : s.buf.length < 5) : execFrsS4 s = .fault .beyondBuffer := by
  simp only [execFrsS4, (memRead_eq_none_iff s.buf 4 1).mpr h]

/-- The candidate's last byte does not exist. -/
theorem execFrsS6_of_short {s : State} (h : s.buf.length < s.L) : execFrsS6 s = .fault .beyondBuffer := by
  have hread : memRead s.buf 0 s.L = none := (memRead_eq_none_iff ..).mpr (by omega)
  simp only [execFrsS6, hread]

/-- Settles O19: each stop is a primitive of R17 used where it is not defined. -/
theorem microStepsStopBeyondTheBuffer : Obligations.MicroStepsStopBeyondTheBuffer := by
  intro s
  rw [exec_frsS2, exec_frsS4, exec_frsS6]
  exact ⟨execFrsS2_of_no_index, fun _ => execFrsS2_of_index_beyond, execFrsS4_of_short, execFrsS6_of_short⟩

/-! ## A push as one update of the state (R17, R95, R100) -/

/-- Ready or not, an offer on the state port changes at most what waits there and what was taken there. -/
theorem offerSt_eq_update (ws : List Word32) (s : State) :
    offerSt ws s = { s with
      stTaken := if s.host.levels.stReady then s.stTaken ++ (s.stOut ++ ws) else s.stTaken,
      stOut := if s.host.levels.stReady then [] else s.stOut ++ ws } := by
  unfold offerSt
  cases s.host.levels.stReady with
  | true => rfl
  | false => rfl

/-- Settles O31: a push is an offer of the words on the state port, and the record. -/
theorem pushedStatesGoToTheStatePort : Obligations.PushedStatesGoToTheStatePort := by
  intro sts s
  rw [pushStates, offerSt_eq_update]

end Sys2Proof.Machine
end

section
/-! PROOFS. The state after reset (spec/10_state.md R31) is idle. -/

namespace Sys2Proof.Machine

/-! ## The state after reset (R31, R290, R291) -/

/-- With quiet outside agents and nothing offered, nothing passes at the ports. -/
theorem cycle_resetWith (c : Cfg) : cycle (State.resetWith c) = State.resetWith c := rfl

/-- No agent finds an operation to run (R291). -/
theorem runAgents_resetWith (c : Cfg) : runAgents (State.resetWith c) = .next (State.resetWith c) := rfl

/-- The step after reset under a legal configuration idles. -/
theorem step_resetWith {c : Cfg} (hc : c.wf = true) : step (State.resetWith c) = .next (State.resetWith c) := by
  have hcfg : (State.resetWith c).cfg.wf = true := hc
  have hrst : (State.resetWith c).host.levels.rst = false := rfl
  simp [step, cycle_resetWith, runAgents_resetWith, hrst, hcfg]

/-- Settles O7: each field and output is read off the state; the step idles. -/
theorem resetStateIsEmptyQuiescentAndIdle : Obligations.ResetStateIsEmptyQuiescentAndIdle := by
  intro c
  exact ⟨rfl, rfl, rfl, rfl, rfl, rfl, rfl, rfl, rfl, rfl, rfl, rfl, rfl, rfl, rfl, rfl, rfl, step_resetWith⟩

end Sys2Proof.Machine
end

section
/-! PROOFS. The ring buffer of spec/10_state.md R22 does to the buffer it stands for what the machine's operations do to `buf`. -/

namespace Sys2Proof.Machine

/-! ## The ring buffer (R22) -/

/-- A legal ring, with its three bounds named. -/
theorem ringOk_iff (r : Ring) :
    ringOk r = true ↔ 262 ≤ r.ram.length ∧ r.hd < r.ram.length ∧ r.cnt ≤ r.ram.length := by
  simp [ringOk, and_assoc]

@[simp] theorem ringBuf_length (r : Ring) : (ringBuf r).length = r.cnt := by simp [ringBuf]

@[simp] theorem ringBuf_getElem (r : Ring) (k : Nat) (h : k < (ringBuf r).length) : (ringBuf r)[k] = ringByte r k := by
  simp [ringBuf]

/-- Two offsets less than the capacity apart have different RAM addresses. -/
theorem ringAddress_ne {hd k m cap : Nat} (hkm : k < m) (hm : m < cap) : (hd + m) % cap ≠ (hd + k) % cap := by
  intro heq
  have hmod : m ≡ k [MOD cap] := Nat.ModEq.add_left_cancel' hd heq
  have : m = k := hmod.eq_of_lt_of_lt hm (by omega)
  omega

/-- An append writes no live byte. -/
theorem ringByte_ringAppend_of_lt {r : Ring} {k : Nat} (b : Byte) (hk : k < r.cnt) (hroom : r.cnt < r.ram.length) :
    ringByte (ringAppend r b) k = ringByte r k := by
  simp [ringByte, ringAppend, List.getD_eq_getElem?_getD, List.getElem?_set_ne (ringAddress_ne hk hroom)]

/-- The byte appended stands behind the live bytes. -/
theorem ringByte_ringAppend_cnt {r : Ring} (b : Byte) (hroom : r.cnt < r.ram.length) :
    ringByte (ringAppend r b) r.cnt = b := by
  have haddr : (r.hd + r.cnt) % r.ram.length < r.ram.length := Nat.mod_lt _ (by omega)
  simp [ringByte, ringAppend, List.getD_eq_getElem?_getD, haddr]

theorem ringBuf_ringAppend {r : Ring} (b : Byte) (hroom : r.cnt < r.ram.length) :
    ringBuf (ringAppend r b) = ringBuf r ++ [b] := by
  have hlive : (List.range r.cnt).map (ringByte (ringAppend r b)) = (List.range r.cnt).map (ringByte r) :=
    List.map_congr_left fun k hk => ringByte_ringAppend_of_lt b (List.mem_range.mp hk) hroom
  calc ringBuf (ringAppend r b)
      = (List.range (r.cnt + 1)).map (ringByte (ringAppend r b)) := rfl
    _ = (List.range r.cnt).map (ringByte (ringAppend r b)) ++ [ringByte (ringAppend r b) r.cnt] := by
        rw [List.range_succ, List.map_append, List.map_singleton]
    _ = ringBuf r ++ [b] := by rw [hlive, ringByte_ringAppend_cnt b hroom, ringBuf]

theorem ringOk_ringAppend {r : Ring} (b : Byte) (hr : ringOk r = true) (hroom : r.cnt < r.ram.length) :
    ringOk (ringAppend r b) = true := by
  obtain ⟨hcap, hhd, -⟩ := (ringOk_iff r).mp hr
  rw [ringOk_iff]
  simp only [ringAppend, List.length_set]
  omega

/-- Moving the read cursor by `n` shifts every offset by `n`. -/
theorem ringByte_ringDrop (n k : Nat) (r : Ring) : ringByte (ringDrop n r) k = ringByte r (n + k) := by
  simp [ringByte, ringDrop, Nat.add_assoc]

theorem ringBuf_ringDrop (n : Nat) (r : Ring) : ringBuf (ringDrop n r) = (ringBuf r).drop n := by
  apply List.ext_getElem
  · simp [ringDrop]
  · intro k _ _
    simp [ringByte_ringDrop]

theorem ringOk_ringDrop (n : Nat) {r : Ring} (hr : ringOk r = true) : ringOk (ringDrop n r) = true := by
  obtain ⟨hcap, hhd, hcnt⟩ := (ringOk_iff r).mp hr
  have haddr : (r.hd + n) % r.ram.length < r.ram.length := Nat.mod_lt _ (by omega)
  rw [ringOk_iff]
  simp only [ringDrop]
  omega

theorem ringBuf_ringClear (hd : Nat) (ram : Bytes) : ringBuf (ringClear hd ram) = [] := rfl

theorem ringOk_ringClear {hd : Nat} {ram : Bytes} (hcap : 262 ≤ ram.length) (hhd : hd < ram.length) :
    ringOk (ringClear hd ram) = true :=
  (ringOk_iff _).mpr ⟨hcap, hhd, Nat.zero_le _⟩

/-- Settles O29: the three operations of the ring, each with the buffer it leaves and its legality. -/
theorem ringBufferRealisesTheBuffer : Obligations.RingBufferRealisesTheBuffer := by
  intro r hr
  obtain ⟨hcap, -, -⟩ := (ringOk_iff r).mp hr
  refine ⟨hcap, ringBuf_length r, fun hheld => ?_, fun b hroom => ?_, fun n _ => ?_, fun hd ram hram hhd => ?_⟩
  · rw [ringBuf_length] at hheld; omega
  · exact ⟨ringBuf_ringAppend b hroom, ringOk_ringAppend b hr hroom⟩
  · exact ⟨ringBuf_ringDrop n r, ringOk_ringDrop n hr⟩
  · exact ⟨ringBuf_ringClear hd ram, ringOk_ringClear (by omega) hhd⟩

end Sys2Proof.Machine
end

section
/-! PROOFS. What every operation keeps: the configuration, the outside agents and the records of what has left (spec/10_state.md R28,
R30; spec/70_reset_and_hazards.md R294); and the configuration along a step. -/

namespace Sys2Proof.Machine

/-! ## What every operation keeps (R28, R30, R294) -/

/-- From `s` to `t` the configuration and the outside agents stand still, and nothing that has left is recalled. -/
structure OpFrame (s t : State) : Prop where
  cfg : t.cfg = s.cfg
  host : t.host = s.host
  emitted : s.emitted <+: t.emitted
  pushed : s.pushed <+: t.pushed
  frmTaken : s.frmTaken <+: t.frmTaken
  stTaken : s.stTaken <+: t.stTaken
  txTaken : s.txTaken <+: t.txTaken

/-- The fields an `OpFrame` speaks of. -/
def opFields (s : State) : Cfg × HostSide × List Bytes × List DeviceState × List FrmBeat × List Word32 × List TxBeat :=
  (s.cfg, s.host, s.emitted, s.pushed, s.frmTaken, s.stTaken, s.txTaken)

namespace OpFrame

/-- An update of other fields is one. -/
theorem of_untouched {s t : State} (h : opFields t = opFields s) : OpFrame s t := by
  simp only [opFields, Prod.mk.injEq] at h
  obtain ⟨hcfg, hhost, hemitted, hpushed, hfrm, hst, htx⟩ := h
  exact ⟨hcfg, hhost, hemitted ▸ List.prefix_rfl, hpushed ▸ List.prefix_rfl, hfrm ▸ List.prefix_rfl, hst ▸ List.prefix_rfl,
    htx ▸ List.prefix_rfl⟩

theorem trans {s t u : State} (h : OpFrame s t) (k : OpFrame t u) : OpFrame s u :=
  ⟨k.cfg.trans h.cfg, k.host.trans h.host, h.emitted.trans k.emitted, h.pushed.trans k.pushed,
    h.frmTaken.trans k.frmTaken, h.stTaken.trans k.stTaken, h.txTaken.trans k.txTaken⟩

/-- Other fields may have been updated before. -/
theorem after_untouched {s t u : State} (k : OpFrame t u) (h : opFields t = opFields s) : OpFrame s u :=
  (of_untouched h).trans k

/-- Other fields may be updated afterwards. -/
theorem then_untouched {s t u : State} (k : OpFrame s t) (h : opFields u = opFields t) : OpFrame s u :=
  k.trans (of_untouched h)

end OpFrame

/-- What a consumer has taken is extended by what it takes, or stays. -/
theorem prefix_ite_append {α : Type} (ready : Bool) (taken more : List α) :
    taken <+: if ready then taken ++ more else taken := by
  cases ready with
  | true => exact List.prefix_append taken more
  | false => exact List.prefix_rfl

theorem opFrame_pushStates (sts : List DeviceState) (s : State) : OpFrame s (pushStates sts s) where
  cfg := by simp
  host := by simp
  emitted := by simp
  pushed := by simp
  frmTaken := by simp
  stTaken := by simpa using prefix_ite_append ..
  txTaken := by simp

theorem opFrame_emitFrame (f : Bytes) (s : State) : OpFrame s (emitFrame f s) where
  cfg := by simp
  host := by simp
  emitted := by simp
  pushed := by simp
  frmTaken := by simpa using prefix_ite_append ..
  stTaken := by simp
  txTaken := by simp

theorem opFrame_offerTx (bs : List TxBeat) (s : State) : OpFrame s (offerTx bs s) where
  cfg := by simp
  host := by simp
  emitted := by simp
  pushed := by simp
  frmTaken := by simp
  stTaken := by simp
  txTaken := by simpa using prefix_ite_append ..

/-! ## The operations, unit by unit -/

theorem execFrsS1_opFrame {s t : State} (h : execFrsS1 s = .next t) : OpFrame s t := by
  rcases execFrsS1_cases s with ⟨-, hs⟩ | ⟨k, -, hs⟩ <;> rw [hs] at h <;> cases h <;> exact .of_untouched rfl

theorem execFrsS2_opFrame {s t : State} (h : execFrsS2 s = .next t) : OpFrame s t := by
  obtain ⟨k, -, -, rfl⟩ := execFrsS2_next h
  exact .of_untouched rfl

theorem execFrsS3_opFrame {s t : State} (h : execFrsS3 s = .next t) : OpFrame s t := by
  unfold execFrsS3 at h
  split at h <;> cases h <;> exact .of_untouched rfl

theorem execFrsS4_opFrame {s t : State} (h : execFrsS4 s = .next t) : OpFrame s t := by
  obtain ⟨d, -, rfl⟩ := execFrsS4_next h
  exact .of_untouched rfl

theorem execFrsS5_opFrame {s t : State} (h : execFrsS5 s = .next t) : OpFrame s t := by
  unfold execFrsS5 at h
  split at h <;> cases h <;> exact .of_untouched rfl

/-- Only an emission extends a record. -/
theorem execFrsS6_opFrame {s t : State} (h : execFrsS6 s = .next t) : OpFrame s t := by
  obtain ⟨-, ⟨-, dev, sub, cmd, -, -, -, rfl⟩ | ⟨-, -, rfl⟩⟩ := execFrsS6_next h
  · have hemit (x a : Byte) : OpFrame s (emitFrame (s.buf.take s.L) (setAcc x a s)) :=
      (opFrame_emitFrame ..).after_untouched rfl
    exact (hemit ..).then_untouched rfl
  · exact .of_untouched rfl

theorem microStep_opFrame {s t : State} (h : microStep s = some (.next t)) : OpFrame s t := by
  unfold microStep at h
  split at h
  · exact absurd h (by simp)
  · exact execFrsS1_opFrame (by simpa using h)
  · exact execFrsS2_opFrame (by simpa using h)
  · exact execFrsS3_opFrame (by simpa using h)
  · exact execFrsS4_opFrame (by simpa using h)
  · exact execFrsS5_opFrame (by simpa using h)
  · exact execFrsS6_opFrame (by simpa using h)

theorem rxAdvance_opFrame {s t : State} (h : rxAdvance s = some (.next t)) : OpFrame s t := by
  rcases rxAdvance_cases s with ⟨-, e⟩ | ⟨-, f, -, e⟩ | ⟨-, -, -, e⟩ | ⟨-, -, -, e⟩ <;> rw [e] at h
  · exact absurd h (by simp)
  · rw [decodeEmitted_eq] at h
    cases h
    exact (opFrame_pushStates ..).after_untouched rfl
  · exact absurd h (by simp)
  · exact microStep_opFrame h

theorem execFrsFeedB_opFrame {b : Byte} {s t : State} (h : execFrsFeedB b s = .next t) : OpFrame s t :=
  rxLoop_keeps (P := OpFrame s) (fun _ _ hs hu => hs.trans (rxAdvance_opFrame hu)) (loopBound (feedStart b s).buf)
    (feedStart b s) t (.of_untouched rfl) h

theorem execTxCmd_opFrame {cls : BitVec 3} {act : Action} {rsv : BitVec 2} {zone : Byte} {arg : BitVec 16} {s t : State}
    (h : execTxCmd cls act rsv zone arg s = .next t) : OpFrame s t := by
  unfold execTxCmd at h
  split at h <;> cases h
  · exact .of_untouched rfl
  · exact (opFrame_offerTx ..).after_untouched rfl

/-- Every operation that answers a next state (R96's thirty rows). -/
theorem exec_opFrame {i : Instr} {s t : State} (h : exec i s = .next t) : OpFrame s t := by
  cases i with
  | frsFeedB b => exact execFrsFeedB_opFrame h
  | frsS1 => exact execFrsS1_opFrame h
  | frsS2 => exact execFrsS2_opFrame h
  | frsS3 => exact execFrsS3_opFrame h
  | frsS4 => exact execFrsS4_opFrame h
  | frsS5 => exact execFrsS5_opFrame h
  | frsS6 => exact execFrsS6_opFrame h
  | txCmd cls act rsv zone arg => exact execTxCmd_opFrame (rsv := rsv) h
  | decLight sub data | decThermo sub data | decVent sub data | decGas sub data | decElev sub data | decIgnore dev sub cmd data =>
    cases h
    exact opFrame_pushStates ..
  | bfeReset | frsFlush | frsGuard | chkXor bs | chkAdd bs | chkValidate f | chkGen bs | encLightSet on rsv zone arg
  | encThMode rsv zone arg | encThTemp rsv zone arg | encThAway rsv zone arg | encVentPower on rsv zone arg
  | encVentSpeed rsv zone arg | encGasClose act rsv zone arg | encElevCall rsv zone arg | bldBuild dev sub cmd payload =>
    cases h
    exact .of_untouched rfl

/-- Settles O56: the records of an operation's frame. -/
theorem outputsAreNeverRecalled : Obligations.OutputsAreNeverRecalled := by
  intro i s t h
  have hframe := exec_opFrame h
  exact ⟨hframe.emitted, hframe.pushed, hframe.frmTaken, hframe.stTaken, hframe.txTaken⟩

/-! ## The configuration along a step (R30, R293) -/

theorem noOperation_cfg (e : DecodeError) (s : State) : (noOperation e s).cfg = s.cfg := by
  rcases noOperation_cases e s with h | h | ⟨r, h⟩ <;> rw [h]
  · exact pushStates_cfg [] s
  · exact refuse_cfg r s

/-- An agent keeps the configuration when its selection does. -/
theorem runSelected_cfg {sel : State → Option (OpWord × State)} {s t : State}
    (hsel : ∀ o u, sel s = some (o, u) → u.cfg = s.cfg) (h : runSelected sel s = .next t) : t.cfg = s.cfg := by
  rcases runSelected_next h with ⟨-, rfl⟩ | ⟨o, u, i, hu, -, hi⟩ | ⟨o, u, e, hu, -, rfl⟩
  · rfl
  · exact (exec_opFrame hi).cfg.trans (hsel o u hu)
  · exact (noOperation_cfg e u).trans (hsel o u hu)

theorem callSelect_cfg {s u : State} {o : OpWord} (h : callSelect s = some (o, u)) : u.cfg = s.cfg := by
  rcases callSelect_cases s with ⟨-, e⟩ | ⟨c, -, e⟩ <;> rw [e] at h <;> cases h
  rfl

theorem txSelect_cfg {s u : State} {o : OpWord} (h : txSelect s = some (o, u)) : u.cfg = s.cfg := by
  rcases txSelect_cases s with ⟨-, e⟩ | ⟨w, -, -, e⟩ <;> rw [e] at h <;> cases h
  rfl

theorem rxAccept_cfg {s u : State} {o : OpWord} (h : rxAccept s = some (o, u)) : u.cfg = s.cfg := by
  rcases rxAccept_cases s with ⟨-, e⟩ | ⟨b, -, -, e⟩ | ⟨-, -, e⟩ <;> rw [e] at h <;> cases h <;> rfl

theorem rxGoOn_cfg {s u : State} {o : OpWord} (h : rxGoOn s = some (o, u)) : u.cfg = s.cfg := by
  rcases rxGoOn_cases s with ⟨-, e⟩ | ⟨-, f, -, e⟩ | ⟨-, -, -, e⟩ | ⟨-, -, -, -, e⟩ | ⟨-, -, -, -, e⟩ <;> rw [e] at h <;>
    cases h <;> rfl

theorem rxSelect_cfg {s u : State} {o : OpWord} (h : rxSelect s = some (o, u)) : u.cfg = s.cfg := by
  unfold rxSelect at h
  split at h
  · exact rxAccept_cfg h
  · exact rxGoOn_cfg h

/-- Out of reset each agent in turn keeps the configuration, and so does the cycle before them. -/
theorem step_cfg_of_no_reset {s t : State} (hrst : (cycle s).host.levels.rst = false) (h : step s = .next t) :
    t.cfg = s.cfg := by
  rcases step_next h with ⟨hr, -⟩ | ⟨-, -, u, v, hu, hv, ht⟩
  · exact absurd (hr.symm.trans hrst) Bool.noConfusion
  · calc t.cfg = v.cfg := runSelected_cfg (fun _ _ => rxSelect_cfg) ht
      _ = u.cfg := runSelected_cfg (fun _ _ => txSelect_cfg) hv
      _ = (cycle s).cfg := runSelected_cfg (fun _ _ => callSelect_cfg) hu
      _ = s.cfg := cycle_cfg s

/-- BFE.RESET leaves the reset state under the standing configuration, but for what has left and the outside agents (R151). -/
theorem exec_bfeReset (s : State) : exec .bfeReset s = .next { State.resetWith s.cfg with
    frmTaken := s.frmTaken, stTaken := s.stTaken, txTaken := s.txTaken, emitted := s.emitted, pushed := s.pushed,
    host := s.host } := rfl

/-- A step with `rst = 1` is BFE.RESET under what the pins present (R293, log 19). -/
theorem step_of_reset {s : State} (hrst : (cycle s).host.levels.rst = true) :
    step s = exec .bfeReset { resetTakes (cycle s) with cfg := (cycle s).host.levels.strap.getD s.cfg } := by
  have hsel : rstSelect (cycle s) =
      some (.rst, { resetTakes (cycle s) with cfg := (cycle s).host.levels.strap.getD s.cfg }) := by
    rw [rstSelect, if_pos hrst, cycle_cfg]
  simp only [step, hrst, if_true, runSelected, hsel, decode]

/-- Settles O55: the frame of an operation, the agents out of reset, and the reset step. -/
theorem configurationChangesOnlyUnderReset : Obligations.ConfigurationChangesOnlyUnderReset := by
  refine ⟨fun i s t h => ⟨(exec_opFrame h).cfg, (exec_opFrame h).host⟩, fun s t => step_cfg_of_no_reset, fun s hrst => ?_⟩
  obtain ⟨h, htakes⟩ := resetTakes_host (cycle s)
  refine ⟨step_of_reset hrst, _, (step_of_reset hrst).trans (exec_bfeReset _), ?_⟩
  simp only [htakes, cycle_emitted, cycle_pushed]

end Sys2Proof.Machine
end

section
/-! PROOFS. The loop of FRS.FEED.B up to the first frame it emits, micro-step by micro-step (spec/41_reassembler.md R149, R153, R155),
and its wait for a slow frame consumer (R29, R300). -/

namespace Sys2Proof.Machine

/-! ## `extract`, pass by pass (R149) -/

/-- A candidate has at least its header and its trailer (R83). -/
theorem seven_le_totalLength (d : Byte) : 7 ≤ totalLength d := Nat.le_add_left ..

/-- A candidate that is not valid loses its first byte, and the search goes on. -/
theorem extract_of_invalid {s : Bytes} {k : Nat} {d : Byte} (hk : find SYNC s = some k) (hd : (s.drop k)[4]? = some d)
    (hlen : totalLength d ≤ (s.drop k).length) (hv : valid ((s.drop k).take (totalLength d)) = false) :
    extract s = extract ((s.drop k).drop 1) := by
  have hlt := find_lt_length hk
  rw [extract, extractWithin_succ, hk]
  simp only [hd, if_neg (Nat.not_lt.mpr hlen), hv, Bool.false_eq_true, if_false]
  exact extractWithin_fuel _ _ _ (by simp only [List.length_drop]; omega) (by omega)

/-- A valid candidate is the next frame, and the search goes on behind it. -/
theorem extract_of_valid {s : Bytes} {k : Nat} {d : Byte} (hk : find SYNC s = some k) (hd : (s.drop k)[4]? = some d)
    (hlen : totalLength d ≤ (s.drop k).length) (hv : valid ((s.drop k).take (totalLength d)) = true) :
    extract s = ((extract ((s.drop k).drop (totalLength d))).1,
      (s.drop k).take (totalLength d) :: (extract ((s.drop k).drop (totalLength d))).2) := by
  have hlt := find_lt_length hk
  have h7 := seven_le_totalLength d
  rw [extract, extractWithin_succ, hk]
  simp only [hd, if_neg (Nat.not_lt.mpr hlen), hv, if_true]
  rw [extractWithin_fuel _ (((s.drop k).drop (totalLength d)).length + 1) _ (by simp only [List.length_drop]; omega) (by omega),
    ← extract]

/-- Where a frame is released there is a complete candidate: a sync byte, a header and `L` bytes. -/
theorem candidate_of_extract_cons {s r f : Bytes} {fs : List Bytes} (h : extract s = (r, f :: fs)) :
    ∃ k d, find SYNC s = some k ∧ (s.drop k)[4]? = some d ∧ totalLength d ≤ (s.drop k).length := by
  rw [extract, extractWithin_succ] at h
  split at h
  · exact absurd h (by simp)
  · rename_i k hk
    split at h
    · exact absurd h (by simp)
    · rename_i d hd
      split at h
      · exact absurd h (by simp)
      · rename_i hlen
        exact ⟨k, d, hk, hd, Nat.not_lt.mp hlen⟩

/-! ## Runs of the loop -/

/-- The loop's next `n` actions lead from `s` to `t`. -/
def LoopRuns (n : Nat) (s t : State) : Prop := ∀ m, rxLoop (m + n) s = rxLoop m t

namespace LoopRuns

theorem single {s t : State} (h : rxAdvance s = some (.next t)) : LoopRuns 1 s t := by
  intro m
  simp only [rxLoop, h]

theorem trans {n m : Nat} {s t u : State} (h : LoopRuns n s t) (k : LoopRuns m t u) : LoopRuns (m + n) s u := by
  intro l
  rw [← Nat.add_assoc, h, k]

/-- A run that ends where the loop waits is the whole loop, given the actions it takes. -/
theorem rxLoop_eq {n fuel : Nat} {s t : State} (h : LoopRuns n s t) (hn : n ≤ fuel) (ht : rxAdvance t = none) :
    rxLoop fuel s = .next t := by
  obtain ⟨m, rfl⟩ := Nat.exists_eq_add_of_le' hn
  rw [h, rxLoop_of_none ht]

end LoopRuns

/-! ## The micro-steps as the engine's next action -/

/-- With nothing pending the engine's next action is the micro-step of the phase (R153). -/
theorem rxAdvance_of_rxOutputsTaken {s : State} (ho : rxOutputsTaken s) : rxAdvance s = microStep s := by
  obtain ⟨hfrm, hst, hslot⟩ := ho
  simp only [rxAdvance, hfrm, hst, hslot]

/-- While bytes of a frame are offered the engine waits (R29). -/
theorem rxAdvance_of_frmOut_ne_nil {s : State} (h : s.frmOut ≠ []) : rxAdvance s = none := by
  rcases rxAdvance_cases s with ⟨-, e⟩ | ⟨hnil, -⟩ | ⟨hnil, -⟩ | ⟨hnil, -⟩
  · exact e
  all_goals exact absurd hnil h

theorem execFrsS1_of_find {s : State} {k : Nat} (hk : find SYNC s.buf = some k) :
    execFrsS1 s = .next (goto .s2 { s with i := some k }) := by
  simp only [execFrsS1, hk]

theorem execFrsS2_of_le {s : State} {k : Nat} (hi : s.i = some k) (hk : k ≤ s.buf.length) :
    execFrsS2 s = .next (goto .s3 { s with buf := s.buf.drop k }) := by
  have hdrop : bufDrop k s.buf = some (s.buf.drop k) := (bufDrop_eq_some_iff ..).mpr ⟨hk, rfl⟩
  simp only [execFrsS2, hi, hdrop]

theorem execFrsS3_of_header {s : State} (h : 5 ≤ s.buf.length) : execFrsS3 s = .next (goto .s4 s) := by
  have hhdr : headerShort s.buf = false := decide_eq_false (Nat.not_lt.mpr h)
  simp only [execFrsS3, hhdr, Bool.false_eq_true, if_false]

theorem execFrsS4_of_length_byte {s : State} {d : Byte} (hd : s.buf[4]? = some d) :
    execFrsS4 s = .next (goto .s5 { s with d := d, L := totalLength d }) := by
  have hread : memRead s.buf 4 1 = some [d] := by rw [memRead_one, hd]; rfl
  simp only [execFrsS4, hread]

theorem execFrsS5_of_complete {s : State} (h : s.L ≤ s.buf.length) : execFrsS5 s = .next (goto .s6 s) := by
  have hcand : candidateShort s.buf s.L = false := decide_eq_false (Nat.not_lt.mpr h)
  simp only [execFrsS5, hcand, Bool.false_eq_true, if_false]

/-- FRS.S6 on a valid candidate of at least the seven bytes every `L` counts (R148). -/
theorem execFrsS6_of_valid {s : State} {f : Bytes} (h7 : 7 ≤ s.L) (hlen : s.L ≤ s.buf.length) (hf : f = s.buf.take s.L)
    (hv : valid f = true) :
    execFrsS6 s = .next (goto .s1 { emitFrame f (setAcc (accValidate f).1 (accValidate f).2.1 s) with
      dev := f.getD 1 0, sub := f.getD 2 0, cmd := f.getD 3 0, buf := s.buf.drop s.L }) := by
  have hread : memRead s.buf 0 s.L = some f := (memRead_eq_some_iff ..).mpr ⟨by omega, by simpa using hf.symm⟩
  have hdrop : bufDrop s.L s.buf = some (s.buf.drop s.L) := (bufDrop_eq_some_iff ..).mpr ⟨hlen, rfl⟩
  have hflen : f.length = s.L := by rw [hf, List.length_take]; omega
  have hbyte : ∀ j < 7, f[j]? = some (f.getD j 0) := fun j hj => by
    rw [List.getD_eq_getElem?_getD, List.getElem?_eq_getElem (by omega), Option.getD_some]
  simp only [execFrsS6, hread, hv, if_true, hbyte 1 (by omega), hbyte 2 (by omega), hbyte 3 (by omega), hdrop]

/-- FRS.S6 on a candidate that is not valid (R148). -/
theorem execFrsS6_of_invalid {s : State} {f : Bytes} (h7 : 7 ≤ s.L) (hlen : s.L ≤ s.buf.length) (hf : f = s.buf.take s.L)
    (hv : valid f = false) :
    execFrsS6 s = .next (goto .s1 { setAcc (accValidate f).1 (accValidate f).2.1 s with buf := s.buf.drop 1 }) := by
  have hread : memRead s.buf 0 s.L = some f := (memRead_eq_some_iff ..).mpr ⟨by omega, by simpa using hf.symm⟩
  have hdrop : bufDrop 1 s.buf = some (s.buf.drop 1) := (bufDrop_eq_some_iff ..).mpr ⟨by omega, rfl⟩
  simp only [execFrsS6, hread, hv, Bool.false_eq_true, if_false, hdrop]

/-! ## One pass of the loop, and the passes up to the first frame -/

/-- With nothing pending a micro-step is one action of the loop. -/
theorem LoopRuns.of_microStep {s t : State} (ho : rxOutputsTaken s) (h : microStep s = some (.next t)) : LoopRuns 1 s t :=
  .single ((rxAdvance_of_rxOutputsTaken ho).trans h)

theorem loopRuns_s1 {s : State} {k : Nat} (hph : s.ph = .s1) (ho : rxOutputsTaken s) (hk : find SYNC s.buf = some k) :
    LoopRuns 1 s (goto .s2 { s with i := some k }) :=
  .of_microStep ho (by simp only [microStep, hph, execFrsS1_of_find hk])

theorem loopRuns_s2 {s : State} {k : Nat} (hph : s.ph = .s2) (ho : rxOutputsTaken s) (hi : s.i = some k)
    (hk : k ≤ s.buf.length) : LoopRuns 1 s (goto .s3 { s with buf := s.buf.drop k }) :=
  .of_microStep ho (by simp only [microStep, hph, execFrsS2_of_le hi hk])

theorem loopRuns_s3 {s : State} (hph : s.ph = .s3) (ho : rxOutputsTaken s) (h : 5 ≤ s.buf.length) :
    LoopRuns 1 s (goto .s4 s) :=
  .of_microStep ho (by simp only [microStep, hph, execFrsS3_of_header h])

theorem loopRuns_s4 {s : State} {d : Byte} (hph : s.ph = .s4) (ho : rxOutputsTaken s) (hd : s.buf[4]? = some d) :
    LoopRuns 1 s (goto .s5 { s with d := d, L := totalLength d }) :=
  .of_microStep ho (by simp only [microStep, hph, execFrsS4_of_length_byte hd])

theorem loopRuns_s5 {s : State} (hph : s.ph = .s5) (ho : rxOutputsTaken s) (h : s.L ≤ s.buf.length) :
    LoopRuns 1 s (goto .s6 s) :=
  .of_microStep ho (by simp only [microStep, hph, execFrsS5_of_complete h])

/-- The state at S6 with the candidate of length byte `d` behind the sync byte at index `k`. -/
def atCandidate (k : Nat) (d : Byte) (s : State) : State :=
  { s with ph := .s6, i := some k, buf := s.buf.drop k, d := d, L := totalLength d }

/-- From S1 with nothing pending the engine brings a complete candidate to S6 in five micro-steps (R155). -/
theorem loopRuns_atCandidate {s : State} {k : Nat} {d : Byte} (hph : s.ph = .s1) (ho : rxOutputsTaken s)
    (hk : find SYNC s.buf = some k) (hd : (s.buf.drop k)[4]? = some d) (hlen : totalLength d ≤ (s.buf.drop k).length) :
    LoopRuns 5 s (atCandidate k d s) := by
  have hheader : 5 ≤ (s.buf.drop k).length := (List.getElem?_eq_some_iff.mp hd).1
  have hs3 := (loopRuns_s1 hph ho hk).trans (loopRuns_s2 rfl ho rfl (find_lt_length hk).le)
  have hs5 := (hs3.trans (loopRuns_s3 rfl ho hheader)).trans (loopRuns_s4 rfl ho hd)
  exact hs5.trans (loopRuns_s5 rfl ho hlen)

/-- The state after the pass of a candidate `f` that is not valid: its first byte is removed (R148). -/
def afterInvalid (k : Nat) (d : Byte) (f : Bytes) (s : State) : State :=
  goto .s1 { setAcc (accValidate f).1 (accValidate f).2.1 (atCandidate k d s) with buf := (s.buf.drop k).drop 1 }

@[simp] theorem afterInvalid_buf (k : Nat) (d : Byte) (f : Bytes) (s : State) :
    (afterInvalid k d f s).buf = (s.buf.drop k).drop 1 := rfl

/-- The pass of a candidate that is not valid. -/
theorem loopRuns_invalid {s : State} {k : Nat} {d : Byte} {f : Bytes} (hph : s.ph = .s1) (ho : rxOutputsTaken s)
    (hk : find SYNC s.buf = some k) (hd : (s.buf.drop k)[4]? = some d) (hlen : totalLength d ≤ (s.buf.drop k).length)
    (hf : f = (s.buf.drop k).take (totalLength d)) (hv : valid f = false) :
    LoopRuns 6 s (afterInvalid k d f s) :=
  (loopRuns_atCandidate hph ho hk hd hlen).trans <| .of_microStep ho <|
    congrArg some (execFrsS6_of_invalid (seven_le_totalLength d) hlen hf hv)

/-- The state after the pass of a valid candidate `f`: it is emitted, and the bytes behind it stay (R148). -/
def afterValid (k : Nat) (d : Byte) (f : Bytes) (s : State) : State :=
  goto .s1 { emitFrame f (setAcc (accValidate f).1 (accValidate f).2.1 (atCandidate k d s)) with
    dev := f.getD 1 0, sub := f.getD 2 0, cmd := f.getD 3 0, buf := (s.buf.drop k).drop (totalLength d) }

@[simp] theorem afterValid_buf (k : Nat) (d : Byte) (f : Bytes) (s : State) :
    (afterValid k d f s).buf = (s.buf.drop k).drop (totalLength d) := rfl

/-- The pass of a valid candidate. -/
theorem loopRuns_valid {s : State} {k : Nat} {d : Byte} {f : Bytes} (hph : s.ph = .s1) (ho : rxOutputsTaken s)
    (hk : find SYNC s.buf = some k) (hd : (s.buf.drop k)[4]? = some d) (hlen : totalLength d ≤ (s.buf.drop k).length)
    (hf : f = (s.buf.drop k).take (totalLength d)) (hv : valid f = true) :
    LoopRuns 6 s (afterValid k d f s) :=
  (loopRuns_atCandidate hph ho hk hd hlen).trans <| .of_microStep ho <|
    congrArg some (execFrsS6_of_valid (seven_le_totalLength d) hlen hf hv)

/-- Ready or not, an emission changes at most the frame port, the record and what is handed to DEC. -/
theorem emitFrame_eq_update (f : Bytes) (s : State) :
    emitFrame f s = { s with
      emitted := s.emitted ++ [f], decSlot := some f,
      frmTaken := if s.host.levels.frmReady then s.frmTaken ++ (s.frmOut ++ frameBeats f) else s.frmTaken,
      frmOut := if s.host.levels.frmReady then [] else s.frmOut ++ frameBeats f } := by
  unfold emitFrame offerFrm
  cases s.host.levels.frmReady with
  | true => rfl
  | false => rfl

/-- `t` is `s` after the emission of `f`, at S1 with the latches loaded from the frame (R148). -/
def EmittedFrom (f : Bytes) (s t : State) : Prop :=
  t = { emitFrame f s with
    buf := t.buf, ph := .s1, i := t.i, d := f.getD 4 0, L := f.length, dev := f.getD 1 0, sub := f.getD 2 0, cmd := f.getD 3 0,
    xacc := t.xacc, aacc := t.aacc }

/-- What a pass without a frame leaves behind in the buffer and the latches is overwritten by the next emission. -/
theorem EmittedFrom.of_afterInvalid {f g : Bytes} {k : Nat} {d : Byte} {s t : State}
    (h : EmittedFrom f (afterInvalid k d g s) t) : EmittedFrom f s t := by
  unfold EmittedFrom at h ⊢
  rw [emitFrame_eq_update] at h ⊢
  exact h

/-- The state after the pass of a valid candidate is one after its emission. -/
theorem emittedFrom_afterValid {f : Bytes} {k : Nat} {d : Byte} {s : State} (hd : f.getD 4 0 = d)
    (hl : f.length = totalLength d) : EmittedFrom f s (afterValid k d f s) := by
  unfold EmittedFrom afterValid
  rw [emitFrame_eq_update, emitFrame_eq_update, hd, hl]
  rfl

/-- The loop up to the first frame `extract` releases, whatever the consumers are ready for: at most six actions for each byte that
leaves the buffer, and `extract` of what is left gives the later frames. -/
theorem loopRuns_first_frame {s : State} {buf' f : Bytes} {fs : List Bytes} (hph : s.ph = .s1) (ho : rxOutputsTaken s)
    (h : extract s.buf = (buf', f :: fs)) :
    ∃ (n : Nat) (skipped : Bytes) (t : State), LoopRuns n s t ∧ EmittedFrom f s t ∧ n + 6 * t.buf.length ≤ 6 * s.buf.length ∧
      s.buf = skipped ++ f ++ t.buf ∧ extract t.buf = (buf', fs) ∧ 7 ≤ f.length := by
  induction hlength : s.buf.length using Nat.strong_induction_on generalizing s with
  | _ len ih =>
    subst hlength
    obtain ⟨k, d, hk, hd, hlen⟩ := candidate_of_extract_cons h
    have hklt := find_lt_length hk
    have h7 := seven_le_totalLength d
    cases hv : valid ((s.buf.drop k).take (totalLength d)) with
    | true =>
      rw [extract_of_valid hk hd hlen hv, Prod.mk.injEq, List.cons.injEq] at h
      obtain ⟨rfl, rfl, rfl⟩ := h
      have hflen : ((s.buf.drop k).take (totalLength d)).length = totalLength d := List.length_take_of_le hlen
      have hfd : ((s.buf.drop k).take (totalLength d)).getD 4 0 = d := by
        rw [List.getD_eq_getElem?_getD, List.getElem?_take_of_lt (by omega), hd, Option.getD_some]
      refine ⟨6, s.buf.take k, _, loopRuns_valid hph ho hk hd hlen rfl hv, emittedFrom_afterValid hfd hflen, ?_, ?_, rfl,
        h7.trans_eq hflen.symm⟩
      · simp only [afterValid_buf, List.length_drop] at hlen ⊢
        omega
      · rw [afterValid_buf, List.append_assoc, List.take_append_drop, List.take_append_drop]
    | false =>
      rw [extract_of_invalid hk hd hlen hv] at h
      have hshorter : ((s.buf.drop k).drop 1).length < s.buf.length := by simp only [List.length_drop]; omega
      obtain ⟨n, skipped, t, hrun, hemit, hn, hbuf, hrest, hf⟩ := ih _ hshorter (s := afterInvalid k d _ s) rfl ho h rfl
      refine ⟨n + 6, s.buf.take k ++ (s.buf.drop k).take 1 ++ skipped, t,
        (loopRuns_invalid hph ho hk hd hlen rfl hv).trans hrun, hemit.of_afterInvalid, ?_, ?_, hrest, hf⟩
      · omega
      · calc s.buf = s.buf.take k ++ ((s.buf.drop k).take 1 ++ (s.buf.drop k).drop 1) := by
              rw [List.take_append_drop, List.take_append_drop]
          _ = s.buf.take k ++ (s.buf.drop k).take 1 ++ skipped ++ f ++ t.buf := by
              rw [afterInvalid_buf] at hbuf
              simp only [hbuf, List.append_assoc]

/-! ## A frame consumer that is not ready (R29, R300) -/

theorem frameBeats_ne_nil {f : Bytes} (h : f ≠ []) : frameBeats f ≠ [] := by
  simpa [frameBeats, List.mapIdx_eq_nil_iff] using h

/-- A busy frame consumer takes nothing: the bytes of the frame are offered. -/
theorem emitFrame_of_not_ready (f : Bytes) {s : State} (h : s.host.levels.frmReady = false) :
    emitFrame f s = { s with emitted := s.emitted ++ [f], decSlot := some f, frmOut := s.frmOut ++ frameBeats f } := by
  rw [emitFrame_eq_update, h]
  rfl

/-- Settles O11: the loop runs to the first frame and waits there. -/
theorem feedByteWaitsForTheFrameConsumer : Obligations.FeedByteWaitsForTheFrameConsumer := by
  rintro s b buf' f fs ⟨-, hfrm, hst, hslot⟩ hbusy h
  obtain ⟨n, skipped, t, hrun, hemit, hn, hbuf, hrest, hflen⟩ :=
    loopRuns_first_frame (s := feedStart b s) rfl ⟨hfrm, hst, hslot⟩ h
  have ht : t = { s with
      buf := t.buf, ph := .s1, i := t.i, d := f.getD 4 0, L := f.length, dev := f.getD 1 0, sub := f.getD 2 0,
      cmd := f.getD 3 0, xacc := t.xacc, aacc := t.aacc,
      emitted := s.emitted ++ [f], frmOut := frameBeats f, decSlot := some f } := by
    unfold EmittedFrom at hemit
    rw [emitFrame_of_not_ready (s := feedStart b s) f hbusy, feedStart_frmOut, hfrm, List.nil_append] at hemit
    exact hemit
  have hwaits : rxAdvance t = none := by
    have hfrmOut : t.frmOut = frameBeats f := by rw [ht]
    have hf : f ≠ [] := List.ne_nil_of_length_pos (by omega)
    exact rxAdvance_of_frmOut_ne_nil (hfrmOut ▸ frameBeats_ne_nil hf)
  have hfuel : n ≤ loopBound (feedStart b s).buf := by
    unfold loopBound
    omega
  exact ⟨t, skipped, hrun.rxLoop_eq hfuel hwaits, ht, hbuf, hrest⟩

end Sys2Proof.Machine
end

section
/-! PROOFS. The two sides of the engine meet nowhere (spec/20_memory.md R60): a receive operation carries any contents of the
transmit side along, and a transmit operation reads and writes nothing of the receive side. -/

namespace Sys2Proof.Machine

/-! ## The transmit side of the state (R60, R223) -/

/-- What a transmit operation writes: the tx port, what the host has taken there, the refusal pulse and the returned value. -/
structure TxSide where
  out : List TxBeat
  taken : List TxBeat
  refused : Option Reason
  ret : Ret

/-- The transmit side of `s`. -/
def txSide (s : State) : TxSide := { out := s.txOut, taken := s.txTaken, refused := s.cmdRefused, ret := s.ret }

/-- `s` with the transmit side `x` in the place of its own. -/
def withTx (x : TxSide) (s : State) : State :=
  { s with txOut := x.out, txTaken := x.taken, cmdRefused := x.refused, ret := x.ret }

theorem txSide_withTx (x : TxSide) (s : State) : txSide (withTx x s) = x := rfl
theorem withTx_txSide (s : State) : withTx (txSide s) s = s := rfl
theorem withTx_withTx (x y : TxSide) (s : State) : withTx x (withTx y s) = withTx x s := rfl

@[simp] theorem withTx_buf (x : TxSide) (s : State) : (withTx x s).buf = s.buf := rfl
@[simp] theorem withTx_ph (x : TxSide) (s : State) : (withTx x s).ph = s.ph := rfl
@[simp] theorem withTx_i (x : TxSide) (s : State) : (withTx x s).i = s.i := rfl
@[simp] theorem withTx_L (x : TxSide) (s : State) : (withTx x s).L = s.L := rfl
@[simp] theorem withTx_decSlot (x : TxSide) (s : State) : (withTx x s).decSlot = s.decSlot := rfl
@[simp] theorem withTx_frmOut (x : TxSide) (s : State) : (withTx x s).frmOut = s.frmOut := rfl
@[simp] theorem withTx_stOut (x : TxSide) (s : State) : (withTx x s).stOut = s.stOut := rfl

/-- The outcome `o` with the transmit side `x` in its next state; a stop stays. -/
def outcomeWithTx (x : TxSide) (o : Outcome) : Outcome := andThen o fun t => .next (withTx x t)

/-! ## A receive operation carries the transmit side along -/

theorem emitFrame_withTx (x : TxSide) (f : Bytes) (s : State) : emitFrame f (withTx x s) = withTx x (emitFrame f s) := by
  rw [emitFrame_eq_update, emitFrame_eq_update]
  rfl

theorem pushStates_withTx (x : TxSide) (sts : List DeviceState) (s : State) :
    pushStates sts (withTx x s) = withTx x (pushStates sts s) := by
  rw [pushedStatesGoToTheStatePort, pushedStatesGoToTheStatePort]
  rfl

theorem decodeEmitted_withTx (x : TxSide) (f : Bytes) (s : State) :
    decodeEmitted f (withTx x s) = outcomeWithTx x (decodeEmitted f s) := by
  rw [decodeEmitted_eq, decodeEmitted_eq, pushStates_withTx]
  rfl

theorem execFrsS1_withTx (x : TxSide) (s : State) : execFrsS1 (withTx x s) = outcomeWithTx x (execFrsS1 s) := by
  simp only [execFrsS1, withTx_buf]
  cases find SYNC s.buf with
  | none => rfl
  | some k => rfl

theorem execFrsS2_withTx (x : TxSide) (s : State) : execFrsS2 (withTx x s) = outcomeWithTx x (execFrsS2 s) := by
  simp only [execFrsS2, withTx_i, withTx_buf]
  cases s.i with
  | none => rfl
  | some k =>
    dsimp only
    cases bufDrop k s.buf with
    | none => rfl
    | some r => rfl

theorem execFrsS3_withTx (x : TxSide) (s : State) : execFrsS3 (withTx x s) = outcomeWithTx x (execFrsS3 s) := by
  rw [execFrsS3, execFrsS3, withTx_buf]
  cases headerShort s.buf with
  | true => rfl
  | false => rfl

theorem execFrsS4_withTx (x : TxSide) (s : State) : execFrsS4 (withTx x s) = outcomeWithTx x (execFrsS4 s) := by
  simp only [execFrsS4, withTx_buf]
  split
  · rfl
  · rfl

theorem execFrsS5_withTx (x : TxSide) (s : State) : execFrsS5 (withTx x s) = outcomeWithTx x (execFrsS5 s) := by
  rw [execFrsS5, execFrsS5, withTx_buf, withTx_L]
  cases candidateShort s.buf s.L with
  | true => rfl
  | false => rfl

theorem execFrsS6_withTx (x : TxSide) (s : State) : execFrsS6 (withTx x s) = outcomeWithTx x (execFrsS6 s) := by
  have hacc (a b : Byte) : setAcc a b (withTx x s) = withTx x (setAcc a b s) := rfl
  simp only [execFrsS6, withTx_buf, withTx_L, hacc, emitFrame_withTx]
  cases memRead s.buf 0 s.L with
  | none => rfl
  | some f =>
    by_cases hv : valid f = true
    · simp only [if_pos hv]
      split <;> rfl
    · simp only [if_neg hv]
      split <;> rfl

theorem microStep_withTx (x : TxSide) (s : State) : microStep (withTx x s) = (microStep s).map (outcomeWithTx x) := by
  simp only [microStep, withTx_ph]
  cases s.ph with
  | q => rfl
  | s1 => exact congrArg some (execFrsS1_withTx x s)
  | s2 => exact congrArg some (execFrsS2_withTx x s)
  | s3 => exact congrArg some (execFrsS3_withTx x s)
  | s4 => exact congrArg some (execFrsS4_withTx x s)
  | s5 => exact congrArg some (execFrsS5_withTx x s)
  | s6 => exact congrArg some (execFrsS6_withTx x s)

theorem rxAdvance_withTx (x : TxSide) (s : State) : rxAdvance (withTx x s) = (rxAdvance s).map (outcomeWithTx x) := by
  simp only [rxAdvance, withTx_frmOut, withTx_decSlot, withTx_stOut]
  cases s.frmOut with
  | cons b bs => rfl
  | nil =>
    cases s.decSlot with
    | some f => exact congrArg some (decodeEmitted_withTx x f { s with decSlot := none, frmOut := [] })
    | none =>
      cases s.stOut with
      | cons w ws => rfl
      | nil => exact microStep_withTx x s

theorem rxLoop_withTx (x : TxSide) (n : Nat) (s : State) : rxLoop n (withTx x s) = outcomeWithTx x (rxLoop n s) := by
  induction n generalizing s with
  | zero => rfl
  | succ n ih =>
    rw [rxLoop, rxLoop, rxAdvance_withTx]
    cases rxAdvance s with
    | none => rfl
    | some o =>
      cases o with
      | next t => exact ih t
      | fault r => rfl
      | refused r => rfl

/-- "The result of an RX operation does not depend on TX at all" (R60). -/
theorem execFrsFeedB_withTx (x : TxSide) (b : Byte) (s : State) :
    execFrsFeedB b (withTx x s) = outcomeWithTx x (execFrsFeedB b s) :=
  rxLoop_withTx x (loopBound (feedStart b s).buf) (feedStart b s)

/-! ## A transmit operation is an update of the transmit side -/

/-- Ready or not, an offer on the tx port changes at most what waits there and what was taken there. -/
theorem offerTx_eq_update (bs : List TxBeat) (s : State) :
    offerTx bs s = { s with
      txTaken := if s.host.levels.txReady then s.txTaken ++ (s.txOut ++ bs) else s.txTaken,
      txOut := if s.host.levels.txReady then [] else s.txOut ++ bs } := by
  unfold offerTx
  cases s.host.levels.txReady with
  | true => rfl
  | false => rfl

/-- The transmit side after a TX.CMD at `s` whose word is transmitted as `r` says (R223): the offer of the frame, or the pulse. -/
def txSideAfter (r : Except Reason Bytes) (s : State) : TxSide :=
  match r with
  | .error e => { txSide s with refused := some e, ret := .refused e }
  | .ok f =>
    { out := if s.host.levels.txReady then [] else s.txOut ++ txBeats f
      taken := if s.host.levels.txReady then s.txTaken ++ (s.txOut ++ txBeats f) else s.txTaken
      refused := none
      ret := .bytes f }

/-- TX.CMD as one update of the state. -/
theorem execTxCmd_eq_withTx (cls : BitVec 3) (act : Action) (rsv : BitVec 2) (zone : Byte) (arg : BitVec 16) (s : State) :
    execTxCmd cls act rsv zone arg s = .next (withTx (txSideAfter (transmitOf s.cfg cls act zone arg) s) s) := by
  unfold execTxCmd
  cases transmitOf s.cfg cls act zone arg with
  | error e => rfl
  | ok f =>
    simp only [offerTx_eq_update]
    rfl

namespace RxFrame

theorem txSide_eq {s t : State} (h : RxFrame s t) : txSide t = txSide s := by
  rw [txSide, txSide, h.txOut, h.txTaken, h.cmdRefused, h.ret]

/-- "The result of a TX operation does not depend on where in time it falls relative to RX operations" (R60). -/
theorem txSideAfter_eq {s t : State} (h : RxFrame s t) (r : Except Reason Bytes) : txSideAfter r t = txSideAfter r s := by
  unfold txSideAfter
  rw [h.txSide_eq, h.host, h.txOut, h.txTaken]

end RxFrame

/-! ## Either order -/

theorem exec_frsFeedB (b : Byte) (s : State) : exec (.frsFeedB b) s = execFrsFeedB b s := rfl

theorem exec_txCmd (cls : BitVec 3) (act : Action) (rsv : BitVec 2) (zone : Byte) (arg : BitVec 16) (s : State) :
    exec (.txCmd cls act rsv zone arg) s = execTxCmd cls act rsv zone arg s := rfl

/-- Settles O51: the byte fed first meets the old transmit side instead of the new one, and the command then writes the same. -/
theorem transmitAndReceiveCommute : Obligations.TransmitAndReceiveCommute := by
  intro s t u cls act rsv zone arg b htx hrx
  rw [exec_txCmd, execTxCmd_eq_withTx] at htx
  rw [exec_frsFeedB] at hrx
  cases htx
  have hfeed : execFrsFeedB b s = .next (withTx (txSide s) u) := by
    rw [← withTx_txSide s, ← withTx_withTx, execFrsFeedB_withTx, hrx]
    rfl
  have hframe := execFrsFeedB_frame hfeed
  have htxSide := (execFrsFeedB_frame hrx).txSide_eq
  rw [txSide_withTx] at htxSide
  refine ⟨withTx (txSide s) u, hfeed, ?_⟩
  rw [exec_txCmd, execTxCmd_eq_withTx, hframe.cfg, hframe.txSideAfter_eq, withTx_withTx, ← htxSide, withTx_txSide]

end Sys2Proof.Machine
end

section
/-! PROOFS. Decoding undoes encoding (spec/30_encoding.md R81, R94, R96, R97): the keys of the decode dispatch, the selecting words of
the decoders' and the encoders' rows, and the thirty rows together. -/

namespace Sys2Proof

/-! ## The keys of the decode dispatch (R92, R93, R180) -/

/-- The constraint of R93: no two classes share a device id. -/
theorem devId_get_injective {c : Cfg} (hc : c.wf = true) : Function.Injective c.devId.get := by
  have hnodup : ([DeviceClass.light, .thermostat, .ventilation, .gasValve, .elevator].map c.devId.get).Nodup := by
    simp only [Cfg.wf, Bool.and_eq_true, decide_eq_true_eq] at hc
    obtain ⟨⟨⟨⟨⟨hids, -⟩, -⟩, -⟩, -⟩, -⟩ := hc
    exact hids
  have hmem (k : DeviceClass) : k ∈ [DeviceClass.light, .thermostat, .ventilation, .gasValve, .elevator] := by
    cases k <;> decide
  exact fun k k' h => List.inj_on_of_nodup_map hnodup (hmem k) (hmem k') h

/-- The decoder of a class is selected only by the key of that class. -/
theorem decodeKey_eq_some {c : Cfg} {dev cmd : Byte} {k : DeviceClass} (h : decodeKey c dev cmd = some k) :
    dev = c.devId.get k ∧ cmd = c.cmdStatus := by
  unfold decodeKey at h
  split_ifs at h with hcmd hdev hdev hdev hdev hdev <;> cases h <;> exact ⟨hdev, hcmd⟩

/-- No decoder is selected exactly by what is none of the five keys. -/
theorem decodeKey_eq_none_iff (c : Cfg) (dev cmd : Byte) : decodeKey c dev cmd = none ↔ (dev, cmd) ∉ statusKeys c := by
  by_cases hcmd : cmd = c.cmdStatus
  · simp [decodeKey, statusKeys, Cfg.deviceIds, hcmd, ite_eq_iff]
  · simp [decodeKey, statusKeys, hcmd, Ne.symm hcmd]

theorem statusKey_mem (c : Cfg) (k : DeviceClass) : (c.devId.get k, c.cmdStatus) ∈ statusKeys c := by
  cases k <;> simp [statusKeys, Cfg.deviceIds, PerClass.get]

/-- The key of a class selects its decoder, since no other class has its device id. -/
theorem decodeKey_status {c : Cfg} (hc : c.wf = true) (k : DeviceClass) :
    decodeKey c (c.devId.get k) c.cmdStatus = some k := by
  cases hkey : decodeKey c (c.devId.get k) c.cmdStatus with
  | none => exact absurd (statusKey_mem c k) ((decodeKey_eq_none_iff ..).mp hkey)
  | some k' =>
    obtain ⟨hdev, -⟩ := decodeKey_eq_some hkey
    rw [devId_get_injective hc hdev]

/-! ## The selecting words of the decoders' and the encoders' rows (R81, R94) -/

/-- A built frame selects the decoder of its key, with the frame's own fields as operands. -/
theorem decode_frame_frameOf (c : Cfg) (dev sub cmd : Byte) {data : Bytes} (hdata : dataLengthOk data = true) :
    decode c (.frame (Machine.frameOf dev sub cmd data)) = .ok (decRowOf (decodeKey c dev cmd) dev sub cmd data) := by
  have hlen : data.length ≤ 255 := of_decide_eq_true hdata
  simp only [decode, decodeFrame, frameFields_frameOf dev sub cmd data hlen]

theorem decode_statusFrame {c : Cfg} (hc : c.wf = true) (k : DeviceClass) (sub : Byte) {data : Bytes}
    (hdata : dataLengthOk data = true) :
    decode c (statusFrame c k sub data) = .ok (decRowOf (some k) (c.devId.get k) sub c.cmdStatus data) := by
  rw [statusFrame, decode_frame_frameOf c _ _ _ hdata, decodeKey_status hc]

theorem decode_unknownFrame {c : Cfg} {dev sub cmd : Byte} {data : Bytes} (hdata : dataLengthOk data = true)
    (hkey : (dev, cmd) ∉ statusKeys c) :
    decode c (.frame (Machine.frameOf dev sub cmd data)) = .ok (.decIgnore dev sub cmd data) := by
  rw [decode_frame_frameOf c _ _ _ hdata, (decodeKey_eq_none_iff ..).mpr hkey]
  rfl

/-- The word of a pair in the table of R210 selects its row. -/
theorem decode_encWord (c : Cfg) {k : DeviceClass} {act : Action} {rsv : BitVec 2} {zone : Byte} {arg : BitVec 16} {i : Instr}
    (hrow : encRowOf k act rsv zone arg = some i) : decode c (encWord k act rsv zone arg) = .ok i := by
  simp only [encWord, decode, decodeUnit, decodeEnc, crwCls_mkCrw, crwAct_mkCrw, crwRsv_mkCrw, crwZone_mkCrw, crwArg_mkCrw,
    classOfTag_classTag, actionOfTag_actionTag, hrow]

theorem encRowOf_light_onOff (on : Bool) (rsv : BitVec 2) (zone : Byte) (arg : BitVec 16) :
    encRowOf .light (onOff on) rsv zone arg = some (.encLightSet on rsv zone arg) := by cases on <;> rfl

theorem encRowOf_ventilation_onOff (on : Bool) (rsv : BitVec 2) (zone : Byte) (arg : BitVec 16) :
    encRowOf .ventilation (onOff on) rsv zone arg = some (.encVentPower on rsv zone arg) := by cases on <;> rfl

theorem decodeCmd_mkCrw (cls : BitVec 3) (act : Action) (rsv : BitVec 2) (zone : Byte) (arg : BitVec 16) :
    decodeCmd (mkCrw cls (actionTag act) rsv zone arg) = .txCmd cls act rsv zone arg := by
  simp [decodeCmd]

/-! ## All rows -/

/-- Settles O59: the decoders' rows by their keys, the encoders' rows and TX.CMD by the fields of their words, the others by their
port, phase or function. -/
theorem decodeOfEncodeIsTheInstruction : Obligations.DecodeOfEncodeIsTheInstruction := by
  intro c i hc hi
  cases i with
  | bfeReset | frsFlush | frsFeedB b | frsGuard | frsS1 | frsS2 | frsS3 | frsS4 | frsS5 | frsS6
  | chkXor s | chkAdd s | chkValidate f | chkGen s | bldBuild dev sub cmd payload => rfl
  | decLight sub data => exact decode_statusFrame hc .light sub hi
  | decThermo sub data => exact decode_statusFrame hc .thermostat sub hi
  | decVent sub data => exact decode_statusFrame hc .ventilation sub hi
  | decGas sub data => exact decode_statusFrame hc .gasValve sub hi
  | decElev sub data => exact decode_statusFrame hc .elevator sub hi
  | decIgnore dev sub cmd data =>
    simp only [wellFormed, Bool.and_eq_true, decide_eq_true_eq] at hi
    obtain ⟨hdata, hkey⟩ := hi
    exact decode_unknownFrame hdata hkey
  | encLightSet on rsv zone arg => exact decode_encWord c (encRowOf_light_onOff on rsv zone arg)
  | encVentPower on rsv zone arg => exact decode_encWord c (encRowOf_ventilation_onOff on rsv zone arg)
  | encThMode rsv zone arg | encThTemp rsv zone arg | encThAway rsv zone arg | encVentSpeed rsv zone arg
  | encGasClose act rsv zone arg | encElevCall rsv zone arg => exact decode_encWord c rfl
  | txCmd cls act rsv zone arg => exact congrArg Except.ok (decodeCmd_mkCrw cls act rsv zone arg)

/-- Settles O60: each word is read by the decoder itself. -/
theorem wordsOfTheSpecDecode : Obligations.WordsOfTheSpecDecode :=
  ⟨rfl, rfl, rfl, rfl, rfl, rfl⟩

end Sys2Proof
end

section
/-! PROOFS. The fields of the device-state word (spec/30_encoding.md R95), and the order of a frame's bytes at the byte ports (R100,
R245). -/

namespace Sys2Proof.Machine

/-! ## The device-state word (R95) -/

/-- The number of a word assembled from two fields, highest first. -/
theorem toNat_append_eq {n m : Nat} (x : BitVec n) (y : BitVec m) : (x ++ y).toNat = x.toNat * 2 ^ m + y.toNat := by
  rw [BitVec.toNat_append, ← Nat.shiftLeft_add_eq_or_of_lt y.isLt, Nat.shiftLeft_eq]

/-- The device-state word as a number: class tag, zone and value, bits 20:18 zero. -/
theorem toNat_dsw (cls : DeviceClass) {zone : Nat} (hzone : zone < 256) (v : DeviceValue) :
    (dsw { key := { cls := cls, zone := zone }, value := v }).toNat =
      (classTag cls).toNat * 2 ^ 29 + zone * 2 ^ 21 + (dswVal v).toNat := by
  simp only [dsw, toNat_append_eq, BitVec.ofNat_eq_ofNat, BitVec.toNat_ofNat]
  omega

theorem toNat_dswVal_flag (b : Bool) : (dswVal (.flag b)).toNat = b.toNat := by
  simp only [dswVal, toNat_append_eq, BitVec.ofNat_eq_ofNat, BitVec.toNat_ofNat, BitVec.toNat_ofBool]
  omega

theorem toNat_dswVal_thermo (hvac : Hvac) (preset : ThPreset) (cur tgt : Byte) :
    (dswVal (.thermo hvac preset cur tgt)).toNat =
      tgt.toNat * 2 ^ 10 + cur.toNat * 4 + (thPresetBit preset).toNat * 2 + (hvacBit hvac).toNat := by
  simp only [dswVal, toNat_append_eq]
  omega

theorem toNat_dswVal_vent (isOn : Bool) {pct : Nat} (hpct : pct < 128) (preset : VentPreset) :
    (dswVal (.vent isOn pct preset)).toNat = (ventPresetCode preset).toNat * 2 ^ 8 + pct * 2 + isOn.toNat := by
  simp only [dswVal, toNat_append_eq, BitVec.ofNat_eq_ofNat, BitVec.toNat_ofNat, BitVec.toNat_ofBool]
  omega

/-- The class tag, the zone, the zeros and the value are read back from the word's number. -/
theorem dsw_fields (cls : DeviceClass) {zone : Nat} (hzone : zone < 256) (v : DeviceValue) :
    let w := (dsw { key := { cls := cls, zone := zone }, value := v }).toNat
    w / 2 ^ 29 = (classTag cls).toNat ∧ w / 2 ^ 21 % 256 = zone ∧ w / 2 ^ 18 % 8 = 0 ∧ w % 2 ^ 18 = (dswVal v).toNat := by
  have hval := (dswVal v).isLt
  rw [toNat_dsw cls hzone]
  dsimp only
  omega

/-- Settles O38: the codes are the tables'; every field is read back from the sum of the fields at their places. -/
theorem deviceStateWordFields : Obligations.DeviceStateWordFields := by
  refine ⟨rfl, rfl, rfl, rfl, fun cls zone v hzone => ?_⟩
  have hw := toNat_dsw cls hzone v
  obtain ⟨hcls, hzn, hzero, hval⟩ := dsw_fields cls hzone v
  refine ⟨hcls, hzn, hzero, ?_⟩
  cases v with
  | flag b => exact hval.trans (toNat_dswVal_flag b)
  | thermo hvac preset cur tgt =>
    rw [toNat_dswVal_thermo] at hw
    have hhvac := (hvacBit hvac).isLt
    have hpreset := (thPresetBit preset).isLt
    have hcur := cur.isLt
    have htgt := tgt.isLt
    dsimp only
    omega
  | vent isOn pct preset =>
    intro hpct
    rw [toNat_dswVal_vent isOn hpct] at hw
    have hon := Bool.toNat_lt isOn
    have hpreset := (ventPresetCode preset).isLt
    omega

/-! ## The byte ports (R100, R245) -/

/-- Beats that carry the bytes of a sequence carry them in index order. -/
theorem map_mapIdx_of_data {α : Type} {beat : Nat → Byte → α} {data : α → Byte} (hdata : ∀ k b, data (beat k b) = b)
    (f : Bytes) : (f.mapIdx beat).map data = f := by
  apply List.ext_getElem <;> simp [hdata]

theorem frameBeats_data (f : Bytes) : (frameBeats f).map FrmBeat.data = f :=
  map_mapIdx_of_data (fun _ _ => rfl) f

theorem txBeats_data (f : Bytes) : (txBeats f).map TxBeat.data = f :=
  map_mapIdx_of_data (fun _ _ => rfl) f

/-- The beat of an index on the frame port: its byte, with the two marks. -/
theorem frameBeats_getElem?_eq_some_iff (f : Bytes) (k : Nat) (b : FrmBeat) :
    (frameBeats f)[k]? = some b ↔
      ∃ v, f[k]? = some v ∧ b = { data := v, sof := decide (k = 0), eof := decide (k + 1 = f.length) } := by
  simp [frameBeats, List.getElem?_mapIdx, eq_comm]

/-- The beat of an index on the tx port: its byte, with the mark of the last. -/
theorem txBeats_getElem?_eq_some_iff (f : Bytes) (k : Nat) (b : TxBeat) :
    (txBeats f)[k]? = some b ↔ ∃ v, f[k]? = some v ∧ b = { data := v, eof := decide (k + 1 = f.length) } := by
  simp [txBeats, List.getElem?_mapIdx, eq_comm]

/-- Settles O39: a beat carries the byte of its index, with the marks of the first and the last. -/
theorem frameBytesGoOutInIndexOrder : Obligations.FrameBytesGoOutInIndexOrder := by
  refine fun f => ⟨frameBeats_data f, txBeats_data f, fun k b hb => ?_, fun k b hb => ?_⟩
  · obtain ⟨v, -, rfl⟩ := (frameBeats_getElem?_eq_some_iff f k b).mp hb
    simp only [decide_eq_true_eq, and_self]
  · obtain ⟨v, -, rfl⟩ := (txBeats_getElem?_eq_some_iff f k b).mp hb
    simp only [decide_eq_true_eq]

end Sys2Proof.Machine
end

section
/-! PROOFS. What each agent selects and runs (spec/30_encoding.md R96, R100): the selectors by case, a selected word as an operation,
the step as the agents one after the other. -/

namespace Sys2Proof.Machine

/-! ## The selectors by case (R96, R150, R153, R269) -/

theorem callSelect_of_call {s : State} {u : UnitCall} (h : s.host.call = some u) :
    callSelect s = some (.unit u, { s with host := { s.host with call := none } }) := by
  simp only [callSelect, h]

theorem callSelect_of_no_call {s : State} (h : s.host.call = none) : callSelect s = none := by
  simp only [callSelect, h]

theorem txSelect_of_command {s : State} {w : Word32} (hcmd : s.host.cmdPin = some w) (hout : s.txOut = []) :
    txSelect s = some (.cmd w, { s with host := { s.host with cmdPin := none } }) := by
  simp only [txSelect, hcmd, hout]

theorem txSelect_eq_none {s : State} (h : s.host.cmdPin = none ∨ s.txOut ≠ []) : txSelect s = none := by
  rcases txSelect_cases s with ⟨-, e⟩ | ⟨w, hcmd, hout, -⟩
  · exact e
  · exact absurd h (by simp [hcmd, hout])

theorem rxSelect_of_quiescent {s : State} (h : s.ph = .q) : rxSelect s = rxAccept s := if_pos h

theorem rxSelect_of_running {s : State} (h : s.ph ≠ .q) : rxSelect s = rxGoOn s := if_neg h

theorem rxAccept_of_flush {s : State} (h : s.host.flushPin = true) :
    rxAccept s = some (.flush, { s with host := { s.host with flushPin := false } }) := by
  simp only [rxAccept, h]

theorem rxAccept_of_byte {s : State} {b : Byte} (hflush : s.host.flushPin = false) (hbyte : s.host.rxPin = some b) :
    rxAccept s = some (.rx b, { s with host := { s.host with rxPin := none } }) := by
  simp only [rxAccept, hflush, hbyte]

theorem rxAccept_of_no_offer {s : State} (hflush : s.host.flushPin = false) (hbyte : s.host.rxPin = none) :
    rxAccept s = none := by
  simp only [rxAccept, hflush, hbyte]

theorem rxGoOn_of_frmOut_ne_nil {s : State} (h : s.frmOut ≠ []) : rxGoOn s = none := by
  obtain ⟨b, bs, hout⟩ := List.exists_cons_of_ne_nil h
  simp only [rxGoOn, hout]

theorem rxGoOn_of_frame {s : State} {f : Bytes} (hfrm : s.frmOut = []) (hslot : s.decSlot = some f) :
    rxGoOn s = some (.frame f, { s with decSlot := none }) := by
  simp only [rxGoOn, hfrm, hslot]

theorem rxGoOn_of_stOut_ne_nil {s : State} (hfrm : s.frmOut = []) (hslot : s.decSlot = none) (hst : s.stOut ≠ []) :
    rxGoOn s = none := by
  obtain ⟨w, ws, hout⟩ := List.exists_cons_of_ne_nil hst
  simp only [rxGoOn, hfrm, hslot, hout]

theorem rxGoOn_of_microStep {s : State} (hph : s.ph ≠ .q) (hout : rxOutputsTaken s) :
    rxGoOn s = some (.phase (phaseCode s.ph), s) := by
  obtain ⟨hfrm, hst, hslot⟩ := hout
  simp only [rxGoOn, hfrm, hslot, hst, if_neg hph]

/-! ## What a selected word runs (R96, log 15) -/

section Selected
variable {sel : State → Option (OpWord × State)} {s t : State} {o : OpWord}

theorem runSelected_of_none (h : sel s = none) : runSelected sel s = .next s := by
  simp only [runSelected, h]

theorem runSelected_of_ok {i : Instr} (h : sel s = some (o, t)) (hi : decode t.cfg o = .ok i) : runSelected sel s = exec i t := by
  simp only [runSelected, h, hi]

theorem runSelected_of_error {e : DecodeError} (h : sel s = some (o, t)) (he : decode t.cfg o = .error e) :
    runSelected sel s = .next (noOperation e t) := by
  simp only [runSelected, h, he]

end Selected

/-- Only the shape of the frame decides whether a row is named; every key has one (R180). -/
theorem frameFields_of_decodeFrame_error {c : Cfg} {f : Bytes} {e : DecodeError} (h : decodeFrame c f = .error e) :
    frameFields f = .error e := by
  unfold decodeFrame at h
  split at h
  · rename_i e' hf
    cases h
    exact hf
  · cases h

theorem statesOf_of_frameFields_error {f : Bytes} {e : DecodeError} (h : frameFields f = .error e) (c : Cfg) :
    statesOf c f = [] := by
  simp only [statesOf, h]

/-- The row of a key runs the decoder of that key. -/
theorem exec_decRowOf (key : Option DeviceClass) (dev sub cmd : Byte) (data : Bytes) (s : State) :
    exec (decRowOf key dev sub cmd data) s = runDecoder key dev sub cmd data s := by
  cases key with
  | none => rfl
  | some k => cases k <;> rfl

/-- The DEC row that a frame selects is the decoding inside FRS.FEED.B (R153, R180). -/
theorem exec_of_decodeFrame {s : State} {f : Bytes} {i : Instr} (h : decodeFrame s.cfg f = .ok i) :
    exec i s = decodeEmitted f s := by
  unfold decodeFrame at h
  split at h
  · cases h
  · rename_i dev sub cmd data hf
    cases h
    simp only [exec_decRowOf, decodeEmitted, hf]

/-- An agent that selects a frame decodes it, whether or not it has the shape of one. -/
theorem runSelected_of_frame {sel : State → Option (OpWord × State)} {s t : State} {f : Bytes}
    (h : sel s = some (.frame f, t)) : runSelected sel s = decodeEmitted f t := by
  cases hdec : decodeFrame t.cfg f with
  | ok i => rw [runSelected_of_ok h hdec, exec_of_decodeFrame hdec]
  | error e =>
    have hf := frameFields_of_decodeFrame_error hdec
    rw [runSelected_of_error h hdec, noOperation_of_frameFields hf, decodeEmitted_eq, statesOf_of_frameFields_error hf]

/-- Phase Q and the unused code have no micro-step, and nothing is done for them (R25, R97). -/
theorem noOperation_of_decodePhase {k : BitVec 3} {e : DecodeError} (h : decodePhase k = .error e) (s : State) :
    noOperation e s = s := by
  unfold decodePhase at h
  split at h <;> cases h <;> rfl

/-! ## The step (R19, R293) -/

theorem step_of_rst {s : State} (hrst : (cycle s).host.levels.rst = true) : step s = runSelected rstSelect (cycle s) := by
  simp only [step, hrst, if_true]

theorem step_of_illFormed {s : State} (hrst : (cycle s).host.levels.rst = false) (hcfg : (cycle s).cfg.wf = false) :
    step s = .fault .illFormedCfg := by
  simp only [step, hrst, hcfg, Bool.false_eq_true, if_false]

theorem step_of_agents {s : State} (hrst : (cycle s).host.levels.rst = false) (hcfg : (cycle s).cfg.wf = true) :
    step s = runAgents (cycle s) := by
  simp only [step, hrst, hcfg, Bool.false_eq_true, if_false, if_true]

/-- TX and RX after a call that leaves `u`. -/
theorem runAgents_of_call_next {c u : State} (h : runSelected callSelect c = .next u) :
    runAgents c = andThen (runSelected txSelect u) (runSelected rxSelect) := by
  rw [runAgents, h, andThen_next]

/-- Without a call, TX and then RX. -/
theorem runAgents_of_no_call {c : State} (h : callSelect c = none) :
    runAgents c = andThen (runSelected txSelect c) (runSelected rxSelect) :=
  runAgents_of_call_next (runSelected_of_none h)

/-- Where neither TX nor RX finds anything after the call, the call was all. -/
theorem runAgents_of_call_alone {c u : State} (h : runSelected callSelect c = .next u) (htx : txSelect u = none)
    (hrx : rxSelect u = none) : runAgents c = .next u := by
  rw [runAgents_of_call_next h, runSelected_of_none htx, andThen_next, runSelected_of_none hrx]

/-- Settles O52: the equations of an agent, the words without a row, and the step's three branches. -/
theorem stepRunsTheSelectedOperation : Obligations.StepRunsTheSelectedOperation := by
  refine ⟨fun sel s t o hsel => ⟨fun i => runSelected_of_ok hsel, fun e => runSelected_of_error hsel⟩,
    fun sel s => runSelected_of_none, fun s f e hdec => ?_, fun s k e hdec => noOperation_of_decodePhase hdec s, ?_⟩
  · have hf := frameFields_of_decodeFrame_error hdec
    have hstates := statesOf_of_frameFields_error hf s.cfg
    exact ⟨noOperation_of_frameFields hf s, hstates, by rw [decodeEmitted_eq, hstates]⟩
  · rintro s c rfl
    refine ⟨step_of_rst, step_of_illFormed, fun hrst hcfg => ?_⟩
    rw [step_of_agents hrst hcfg]
    refine ⟨rfl, fun hcall htx hrx => ?_, fun o t i hcall htx hrx hi => ?_, fun o t i u hcall htx hi hu hrx => ?_,
      fun o t i u hcall hi hu htx hrx => ?_, fun o t e hcall he htx hrx => ?_⟩
    · exact runAgents_of_call_alone (runSelected_of_none hcall) htx hrx
    · rw [runAgents_of_no_call hcall, runSelected_of_none htx, andThen_next, runSelected_of_ok hrx hi]
    · rw [runAgents_of_no_call hcall, runSelected_of_ok htx hi, hu, andThen_next, runSelected_of_none hrx]
    · rw [hu]
      exact runAgents_of_call_alone ((runSelected_of_ok hcall hi).trans hu) htx hrx
    · exact runAgents_of_call_alone (runSelected_of_error hcall he) htx hrx

/-- Settles O54: the reset, the agents out of reset, and RX at phase Q and away from it. -/
theorem selectorsOfTheOperationMap : Obligations.SelectorsOfTheOperationMap := by
  refine ⟨?_, ?_, fun c hph => ?_, fun c hph => ?_⟩
  · rintro s c rfl hrst
    rw [step_of_reset hrst, cycle_cfg]
  · rintro s c rfl hcfg hrst
    rw [step_of_agents hrst hcfg]
    refine ⟨fun u i hcall hi => ?_, fun u e hcall he => ?_, fun w hcall hcmd hout => ?_, fun hcall hcmd => ?_⟩
    · rw [runAgents, runSelected_of_ok (callSelect_of_call hcall) hi]
    · exact runAgents_of_call_next (runSelected_of_error (callSelect_of_call hcall) he)
    · rw [runAgents_of_no_call (callSelect_of_no_call hcall), runSelected_of_ok (txSelect_of_command hcmd hout) rfl, decodeCmd]
    · rw [runAgents_of_no_call (callSelect_of_no_call hcall), runSelected_of_none (txSelect_eq_none hcmd), andThen_next]
  · have hsel := rxSelect_of_quiescent hph
    exact ⟨fun hflush => runSelected_of_ok (hsel.trans (rxAccept_of_flush hflush)) rfl,
      fun b hflush hbyte => runSelected_of_ok (hsel.trans (rxAccept_of_byte hflush hbyte)) rfl,
      fun hflush hbyte => runSelected_of_none (hsel.trans (rxAccept_of_no_offer hflush hbyte))⟩
  · have hsel := rxSelect_of_running hph
    exact ⟨fun hfrm => runSelected_of_none (hsel.trans (rxGoOn_of_frmOut_ne_nil hfrm)),
      fun f i hfrm hslot hi => runSelected_of_ok (hsel.trans (rxGoOn_of_frame hfrm hslot)) hi,
      fun f hfrm hslot => runSelected_of_frame (hsel.trans (rxGoOn_of_frame hfrm hslot)),
      fun hfrm hslot hst => runSelected_of_none (hsel.trans (rxGoOn_of_stOut_ne_nil hfrm hslot hst)),
      fun i hout hi => runSelected_of_ok (hsel.trans (rxGoOn_of_microStep hph hout)) hi⟩

end Sys2Proof.Machine
end

section
/-! PROOFS. The cycle at the ports before the agents run (spec/30_encoding.md R100), port by port. -/

namespace Sys2Proof.Machine

/-! ## The cycle, port by port (R100) -/

/-- The cycle as one update of the state. -/
theorem cycle_eq_update (s : State) : cycle s = { s with
    host := nextHost s.host, cmdRefused := none,
    frmTaken := if (nextHost s.host).levels.frmReady then s.frmTaken ++ s.frmOut.take 1 else s.frmTaken,
    frmOut := if (nextHost s.host).levels.frmReady then s.frmOut.drop 1 else s.frmOut,
    stTaken := if (nextHost s.host).levels.stReady then s.stTaken ++ s.stOut.take 1 else s.stTaken,
    stOut := if (nextHost s.host).levels.stReady then s.stOut.drop 1 else s.stOut,
    txTaken := if (nextHost s.host).levels.txReady then s.txTaken ++ s.txOut.take 1 else s.txTaken,
    txOut := if (nextHost s.host).levels.txReady then s.txOut.drop 1 else s.txOut } := by
  rw [cycle, takeTx_eq, takeSt_eq, takeFrm_eq]

theorem frmPort_toList (s : State) : (frmPort s).toList = s.frmOut.take 1 := by rw [frmPort, List.take_one]
theorem stPort_toList (s : State) : (stPort s).toList = s.stOut.take 1 := by rw [stPort, List.take_one]
theorem txPort_toList (s : State) : (txPort s).toList = s.txOut.take 1 := by rw [txPort, List.take_one]

theorem frmValid_iff (s : State) : frmValid s = true ↔ s.frmOut ≠ [] := by simp [frmValid]
theorem stValid_iff (s : State) : stValid s = true ↔ s.stOut ≠ [] := by simp [stValid]
theorem txValid_iff (s : State) : txValid s = true ↔ s.txOut ≠ [] := by simp [txValid]

/-- Settles O53: the cycle as one update, the ports' outputs, and what the outside agents hold. -/
theorem eachReadyPortTransfersItsFirstBeat : Obligations.EachReadyPortTransfersItsFirstBeat := by
  intro s
  refine ⟨?_, frmPort_toList s, stPort_toList s, txPort_toList s, frmValid_iff s, stValid_iff s, txValid_iff s,
    nextHost_flushPin_held s.host, fun op ops hissued => ?_, nextHost_rxPin_held s.host, nextHost_cmdPin_held s.host⟩
  · rw [cycle_eq_update, frmPort_toList, stPort_toList, txPort_toList]
  · cases op with
    | byte b => exact nextHost_issued s.host (.byte b) ops hissued
    | flush => exact nextHost_issued s.host .flush ops hissued

end Sys2Proof.Machine
end

section
/-! PROOFS. What a step takes of the outside agents' offers (spec/30_encoding.md R100, R55, R150, R269): what each agent's selection
takes, what an agent leaves for the next one to see, and the handshakes as `flush_ack`, `rx_ready` and `cmd_ready` give them. -/

namespace Sys2Proof.Machine

/-! ## What is left of the offers -/

/-- The outside agents after TX has had its turn, with `out` waiting on the tx port (R269). -/
def commandTaken (out : List TxBeat) (h : HostSide) : HostSide := { h with cmdPin := if out = [] then none else h.cmdPin }

/-- The outside agents after RX has had its turn at phase `ph` (R150: a flush before a byte). -/
def receiveTaken (ph : Phase) (h : HostSide) : HostSide :=
  { h with
    flushPin := h.flushPin && decide (ph ≠ .q)
    rxPin := if ph = .q ∧ h.flushPin = false then none else h.rxPin }

theorem commandTaken_of_no_command {out : List TxBeat} {h : HostSide} (hkeep : h.cmdPin = none ∨ out ≠ []) :
    commandTaken out h = h := by
  have hcmd : (if out = [] then none else h.cmdPin) = h.cmdPin := by
    rcases hkeep with hcmd | hout
    · simp [hcmd]
    · exact if_neg hout
  rw [commandTaken, hcmd]

theorem receiveTaken_of_running {ph : Phase} (hph : ph ≠ .q) (h : HostSide) : receiveTaken ph h = h := by
  simp [receiveTaken, hph]

theorem receiveTaken_of_no_offer (ph : Phase) {h : HostSide} (hflush : h.flushPin = false) (hbyte : h.rxPin = none) :
    receiveTaken ph h = h := by
  cases h
  simp_all [receiveTaken]

/-- What the selection of a call takes. -/
theorem offerTaken_callSelect (s : State) : offerTaken callSelect s = { s with host := { s.host with call := none } } := by
  unfold offerTaken
  rcases callSelect_cases s with ⟨hcall, e⟩ | ⟨u, -, e⟩ <;> rw [e]
  rw [← hcall]

/-- What TX's selection takes. -/
theorem offerTaken_txSelect (s : State) : offerTaken txSelect s = { s with host := commandTaken s.txOut s.host } := by
  unfold offerTaken
  rcases txSelect_cases s with ⟨hkeep, e⟩ | ⟨w, -, hout, e⟩ <;> rw [e]
  · rw [commandTaken_of_no_command hkeep]
  · rw [commandTaken, if_pos hout]

/-- What RX's selection takes at phase Q. -/
theorem offerTaken_rxAccept {s : State} (hph : s.ph = .q) :
    offerTaken rxAccept s = { s with host := receiveTaken s.ph s.host } := by
  unfold offerTaken
  rcases rxAccept_cases s with ⟨hflush, e⟩ | ⟨b, hflush, -, e⟩ | ⟨hflush, hbyte, e⟩ <;> rw [e]
  · simp [receiveTaken, hph, hflush]
  · simp [receiveTaken, hph, hflush]
  · rw [receiveTaken_of_no_offer s.ph hflush hbyte]

/-- The engine's own next operation takes no offer. -/
theorem offerTaken_rxGoOn_host (s : State) : (offerTaken rxGoOn s).host = s.host := by
  unfold offerTaken
  rcases rxGoOn_cases s with ⟨-, e⟩ | ⟨-, f, -, e⟩ | ⟨-, -, -, e⟩ | ⟨-, -, -, -, e⟩ | ⟨-, -, -, -, e⟩ <;> rw [e]

/-- What RX's selection takes. -/
theorem offerTaken_rxSelect_host (s : State) : (offerTaken rxSelect s).host = receiveTaken s.ph s.host := by
  by_cases hph : s.ph = .q
  · have hsel : offerTaken rxSelect s = offerTaken rxAccept s := by rw [offerTaken, offerTaken, rxSelect_of_quiescent hph]
    rw [hsel, offerTaken_rxAccept hph]
  · have hsel : offerTaken rxSelect s = offerTaken rxGoOn s := by rw [offerTaken, offerTaken, rxSelect_of_running hph]
    rw [hsel, offerTaken_rxGoOn_host, receiveTaken_of_running hph]

/-- What a cycle with `rst = 1` takes: the same (log 18). -/
theorem resetTakes_eq (s : State) :
    resetTakes s = { s with host := receiveTaken s.ph (commandTaken s.txOut s.host) } := by
  rw [resetTakes, offerTaken_txSelect]
  by_cases hph : s.ph = .q
  · rw [if_pos hph]
    exact offerTaken_rxAccept (s := { s with host := commandTaken s.txOut s.host }) hph
  · rw [if_neg hph, receiveTaken_of_running hph]

/-! ## What an agent leaves -/

theorem noOperation_host (e : DecodeError) (s : State) : (noOperation e s).host = s.host := by
  rcases noOperation_cases e s with h | h | ⟨r, h⟩ <;> rw [h]
  · exact pushStates_host [] s
  · exact refuse_host r s

/-- An agent takes the offer its selection takes, and its operation touches no offer. -/
theorem runSelected_host {sel : State → Option (OpWord × State)} {s t : State} (h : runSelected sel s = .next t) :
    t.host = (offerTaken sel s).host := by
  rcases runSelected_next h with ⟨hsel, rfl⟩ | ⟨o, u, i, hsel, -, hi⟩ | ⟨o, u, e, hsel, -, rfl⟩ <;>
    simp only [offerTaken, hsel]
  · exact (exec_opFrame hi).host
  · exact noOperation_host e u

/-- An ENC row changes the returned value alone (R210). -/
theorem exec_of_encRowOf {k : DeviceClass} {act : Action} {rsv : BitVec 2} {zone : Byte} {arg : BitVec 16} {i : Instr}
    (h : encRowOf k act rsv zone arg = some i) (s : State) : ∃ r, exec i s = .next (setRet r s) := by
  unfold encRowOf at h
  split at h <;> cases h <;> exact ⟨_, rfl⟩

theorem exec_of_decodeEnc {w : Word32} {i : Instr} (h : decodeEnc w = .ok i) (s : State) :
    ∃ r, exec i s = .next (setRet r s) := by
  unfold decodeEnc at h
  split at h
  · cases h
  · split at h
    · cases h
    · rename_i hrow
      cases h
      exact exec_of_encRowOf hrow s

/-- An internal function changes neither the phase nor what waits on the tx port. -/
theorem exec_of_decodeUnit {u : UnitCall} {i : Instr} {s t : State} (hi : decodeUnit u = .ok i) (h : exec i s = .next t) :
    t.ph = s.ph ∧ t.txOut = s.txOut := by
  cases u with
  | guard | chkXor bs | chkAdd bs | chkValidate f | chkGen bs | build dev sub cmd payload =>
    cases hi
    cases h
    exact ⟨rfl, rfl⟩
  | enc w =>
    obtain ⟨r, hr⟩ := exec_of_decodeEnc hi s
    cases hr.symm.trans h
    exact ⟨rfl, rfl⟩

theorem noOperation_ph_txOut (e : DecodeError) (s : State) :
    (noOperation e s).ph = s.ph ∧ (noOperation e s).txOut = s.txOut := by
  rcases noOperation_cases e s with h | h | ⟨r, h⟩ <;> simp [h]

/-- After a call TX and RX see the ports as they were. -/
theorem runSelected_callSelect_ph_txOut {c u : State} (h : runSelected callSelect c = .next u) :
    u.ph = c.ph ∧ u.txOut = c.txOut := by
  rcases callSelect_cases c with ⟨-, hsel⟩ | ⟨call, -, hsel⟩
  · rw [runSelected_of_none hsel] at h
    cases h
    exact ⟨rfl, rfl⟩
  · cases hdec : decodeUnit call with
    | ok i =>
      rw [runSelected_of_ok hsel hdec] at h
      exact (exec_of_decodeUnit hdec h :)
    | error e =>
      cases (runSelected_of_error hsel hdec).symm.trans h
      exact noOperation_ph_txOut e _

/-- A command leaves the phase as it is (R60). -/
theorem runSelected_txSelect_ph {u v : State} (h : runSelected txSelect u = .next v) : v.ph = u.ph := by
  rcases txSelect_cases u with ⟨-, hsel⟩ | ⟨w, -, -, hsel⟩
  · rw [runSelected_of_none hsel] at h
    cases h
    rfl
  · rw [runSelected_of_ok hsel rfl, decodeCmd, exec_txCmd, execTxCmd_eq_withTx] at h
    cases h
    rfl

/-- What is left of the offers after a step: the same in reset and out of it, but for a call, which stays standing in reset. -/
theorem step_host {s t : State} (h : step s = .next t) : ∃ call : Option UnitCall,
    t.host = { receiveTaken (cycle s).ph (commandTaken (cycle s).txOut (cycle s).host) with call := call } := by
  rcases step_next h with ⟨hrst, -⟩ | ⟨-, -, u, v, hu, hv, ht⟩
  · rw [step_of_reset hrst, resetTakes_eq] at h
    exact ⟨(cycle s).host.call, (exec_opFrame h).host⟩
  · have hcall := runSelected_host hu
    obtain ⟨hph, hout⟩ := runSelected_callSelect_ph_txOut hu
    have htx := runSelected_host hv
    have hrx := runSelected_host ht
    rw [offerTaken_callSelect] at hcall
    rw [offerTaken_txSelect, hcall, hout] at htx
    rw [offerTaken_rxSelect_host, runSelected_txSelect_ph hv, htx, hph] at hrx
    exact ⟨none, hrx⟩

/-! ## The handshakes (R100) -/

theorem flushAck_iff (s : State) : flushAck s = true ↔ s.ph = .q ∧ s.host.flushPin = true := by
  simp [flushAck, and_comm]

theorem rxReady_iff (s : State) : rxReady s = true ↔ s.ph = .q ∧ s.host.flushPin = false := by
  by_cases hph : s.ph = .q <;> simp [rxReady, flushAck, hph]

theorem cmdReady_iff (s : State) : cmdReady s = true ↔ s.txOut = [] := List.isEmpty_iff

theorem receiveTaken_flushPin (s : State) (h : HostSide) (hflush : h.flushPin = s.host.flushPin) :
    (receiveTaken s.ph h).flushPin = (s.host.flushPin && !flushAck s) := by
  cases hf : s.host.flushPin <;> simp [receiveTaken, flushAck, hflush, hf]

/-- Settles O13: what a step leaves of the offers, with each handshake read as its port's output. -/
theorem offersAreTakenExactlyAtTheHandshake : Obligations.OffersAreTakenExactlyAtTheHandshake := by
  rintro s t c rfl hstep
  obtain ⟨call, ht⟩ := step_host hstep
  rw [ht]
  refine ⟨receiveTaken_flushPin (cycle s) _ rfl, ?_, ?_, rfl, rfl, rfl, rfl, flushAck_iff _, rxReady_iff _, cmdReady_iff _,
    fun hph => ?_⟩
  · simp only [rxReady_iff]
    rfl
  · simp only [cmdReady_iff]
    rfl
  · rw [receiveTaken_of_running hph]
    exact ⟨rfl, rfl⟩

end Sys2Proof.Machine
end

section
/-! PROOFS. Unit CHK (spec/40_checksum.md): the two checksums under appending and under the change of one byte, validation of a
sequence written as a body and its two trailer bytes, and the effect of each operation. -/

namespace Sys2Proof.Machine

/-! ## The XOR and the sum of a sequence (R121, R122, R127) -/

@[simp] theorem xorOf_nil : xorOf [] = 0 := rfl

theorem xorOf_cons (b : Byte) (s : Bytes) : xorOf (b :: s) = b ^^^ xorOf s := by
  rw [xorOf, List.foldl_cons, BitVec.xor_comm]
  exact List.foldl_assoc

@[simp] theorem xorOf_singleton (b : Byte) : xorOf [b] = b := BitVec.zero_xor

theorem xorOf_append (s t : Bytes) : xorOf (s ++ t) = xorOf s ^^^ xorOf t := by
  induction s with
  | nil => exact BitVec.zero_xor.symm
  | cons b s ih => rw [List.cons_append, xorOf_cons, xorOf_cons, ih, BitVec.xor_assoc]

@[simp] theorem addOf_nil : addOf [] = 0 := rfl

theorem addOf_append (s t : Bytes) : addOf (s ++ t) = addOf s + addOf t := by
  simp [addOf, BitVec.ofNat_add]

@[simp] theorem addOf_singleton (b : Byte) : addOf [b] = b := by simp [addOf]

theorem addOf_cons (b : Byte) (s : Bytes) : addOf (b :: s) = b + addOf s := by
  rw [← List.singleton_append, addOf_append, addOf_singleton]

theorem toNat_addOf (s : Bytes) : (addOf s).toNat = (s.map BitVec.toNat).sum % 256 := BitVec.toNat_ofNat ..

/-! ## One byte replaced by another -/

theorem exists_split_set {s : Bytes} {k : Nat} {b : Byte} (c : Byte) (hb : s[k]? = some b) :
    ∃ p q : Bytes, s = p ++ b :: q ∧ s.set k c = p ++ c :: q := by
  obtain ⟨hk, rfl⟩ := List.getElem?_eq_some_iff.mp hb
  obtain ⟨p, q, hs, -, hset⟩ := List.exists_of_set (a' := c) hk
  exact ⟨p, q, hs, hset⟩

theorem xorOf_set {s : Bytes} {k : Nat} {b : Byte} (c : Byte) (hb : s[k]? = some b) :
    xorOf (s.set k c) ^^^ b = xorOf s ^^^ c := by
  obtain ⟨p, q, rfl, hset⟩ := exists_split_set c hb
  rw [hset, xorOf_append, xorOf_append, xorOf_cons, xorOf_cons]
  ac_rfl

theorem addOf_set {s : Bytes} {k : Nat} {b : Byte} (c : Byte) (hb : s[k]? = some b) :
    addOf (s.set k c) + b = addOf s + c := by
  obtain ⟨p, q, rfl, hset⟩ := exists_split_set c hb
  rw [hset, addOf_append, addOf_append, addOf_cons, addOf_cons]
  ac_rfl

/-! ## Validation of a body and its trailer (R123, R125) -/

theorem exists_body_trailer {f : Bytes} (h : 2 ≤ f.length) : ∃ (s : Bytes) (x a : Byte), f = s ++ [x, a] := by
  have hlen : (f.drop (f.length - 2)).length = 2 := by rw [List.length_drop]; omega
  obtain ⟨x, a, htrailer⟩ := List.length_eq_two.mp hlen
  exact ⟨f.take (f.length - 2), x, a, by rw [← htrailer, List.take_append_drop]⟩

section Trailer
variable (s : Bytes) (x a : Byte)

theorem length_trailer : (s ++ [x, a]).length = s.length + 2 := by simp

@[simp] theorem take_length_succ_trailer : (s ++ [x, a]).take (s.length + 1) = s ++ [x] := by simp [List.take_append]

theorem valid_trailer_iff : valid (s ++ [x, a]) = true ↔ x = xorOf s ∧ a = addOf (s ++ [x]) := by
  simp [valid, eq_comm (a := x), eq_comm (a := a)]

theorem accValidate_trailer : accValidate (s ++ [x, a]) = (xorOf s, addOf (s ++ [x]), valid (s ++ [x, a])) := by
  simp [accValidate, accPass_eq, valid, addOf_append]

theorem valid_trailer_iff_gen : valid (s ++ [x, a]) = true ↔ s ++ [x, a] = gen s := by
  rw [valid_trailer_iff, gen, List.append_cancel_left_eq, List.cons.injEq, List.cons.injEq]
  exact and_congr_right fun hx => by simp [hx]

end Trailer

theorem valid_gen (s : Bytes) : valid (gen s) = true := (valid_trailer_iff_gen ..).mpr rfl

theorem valid_of_short {f : Bytes} (h : f.length < 2) : valid f = false := by
  match f, h with
  | [], _ => rfl
  | [_], _ => rfl

theorem accValidate_of_short {f : Bytes} (h : f.length < 2) : (accValidate f).2.2 = false := by
  match f, h with
  | [], _ => rfl
  | [_], _ => rfl

theorem two_le_length_of_valid {f : Bytes} (h : valid f = true) : 2 ≤ f.length := by
  by_contra hshort
  rw [valid_of_short (Nat.not_le.mp hshort)] at h
  exact Bool.false_ne_true h

/-- The incremental form of R129 answers what R123 answers, for every length. -/
theorem accValidate_answer (f : Bytes) : (accValidate f).2.2 = valid f := by
  rcases Nat.lt_or_ge f.length 2 with hshort | hlong
  · rw [accValidate_of_short hshort, valid_of_short hshort]
  · obtain ⟨s, x, a, rfl⟩ := exists_body_trailer hlong
    rw [accValidate_trailer]

/-- The two comparisons of R123. -/
theorem valid_iff (f : Bytes) : valid f = true ↔ 2 ≤ f.length ∧ f[f.length - 2]? = some (xorOf (f.take (f.length - 2))) ∧
    f[f.length - 1]? = some (addOf (f.take (f.length - 1))) := by
  rcases Nat.lt_or_ge f.length 2 with hshort | hlong
  · simp [valid_of_short hshort, Nat.not_le.mpr hshort]
  · obtain ⟨s, x, a, rfl⟩ := exists_body_trailer hlong
    simp [valid_trailer_iff]

theorem accGen_eq (s : Bytes) : accGen s = (xorOf s, addOf (s ++ [xorOf s]), gen s) := by
  simp [accGen, accPass_eq, gen, addOf_append]

/-! ## The four operations: the effect of each on the state -/

theorem exec_chkXor (bs : Bytes) (s : State) :
    exec (.chkXor bs) s = .next { s with xacc := xorOf bs, aacc := 0, ret := .byte (xorOf bs) } := rfl

theorem exec_chkAdd (bs : Bytes) (s : State) :
    exec (.chkAdd bs) s = .next { s with xacc := 0, aacc := addOf bs, ret := .byte (addOf bs) } := rfl

theorem exec_chkValidate (f : Bytes) (s : State) :
    exec (.chkValidate f) s =
      .next { s with xacc := (accValidate f).1, aacc := (accValidate f).2.1, ret := .truth (valid f) } := by
  rw [← accValidate_answer]
  rfl

theorem exec_chkGen (bs : Bytes) (s : State) :
    exec (.chkGen bs) s =
      .next { s with xacc := xorOf bs, aacc := addOf (bs ++ [xorOf bs]), ret := .bytes (gen bs) } := by
  have heffect : exec (.chkGen bs) s =
      .next { s with xacc := (accGen bs).1, aacc := (accGen bs).2.1, ret := .bytes (accGen bs).2.2 } := rfl
  rw [heffect, accGen_eq]

/-- Settles O1. -/
theorem chkXorReturnsTheXorOfAllBytes : Obligations.ChkXorReturnsTheXorOfAllBytes := by
  refine ⟨fun bs s => ⟨_, _, exec_chkXor bs s⟩, xorOf_nil, xorOf_cons, xorOf_singleton, xorOf_append, fun s => ?_, by decide⟩
  rw [xorOf_append, xorOf_singleton]
  exact BitVec.xor_self

/-- Settles O2. -/
theorem chkAddReturnsTheSumModulo256 : Obligations.ChkAddReturnsTheSumModulo256 := by
  refine ⟨fun bs s => ⟨_, _, exec_chkAdd bs s⟩, addOf_nil, toNat_addOf, addOf_append, ?_, by decide⟩
  rw [addOf, List.map_replicate, List.sum_replicate]
  rfl

/-- Settles O3: a sequence of two bytes or more is a body and its trailer, on which both forms of the rule are known. -/
theorem chkValidateTestsBothChecksums : Obligations.ChkValidateTestsBothChecksums := by
  refine ⟨fun f s => ⟨_, _, _, exec_chkValidate f s, valid_iff f, rfl, fun hlen => ?_⟩, fun f => valid_of_short,
    fun x a => ?_, fun f hlen => ?_, by decide, by decide, by decide⟩
  · obtain ⟨s, x, a, rfl⟩ := exists_body_trailer hlen
    simp [accValidate_trailer]
  · exact (valid_trailer_iff [] x a).trans (and_congr_right fun hx => by rw [hx]; rfl)
  · obtain ⟨s, x, a, rfl⟩ := exists_body_trailer hlen
    simp [addOK, addOf_append]

/-- Settles O4. -/
theorem chkGenAppendsBothChecksums : Obligations.ChkGenAppendsBothChecksums :=
  ⟨fun bs s => ⟨_, _, rfl, rfl, exec_chkGen bs s, rfl⟩, fun s => length_trailer .., by decide, by decide⟩

/-- Settles O5: the trailer that validates is the one `gen` appends. -/
theorem generationValidatesAndIsUnique : Obligations.GenerationValidatesAndIsUnique := by
  refine ⟨valid_gen, fun f hlen => ?_, fun s => ⟨(xorOf s, addOf (s ++ [xorOf s])), valid_gen s, ?_⟩⟩
  · obtain ⟨s, x, a, rfl⟩ := exists_body_trailer hlen
    simpa using valid_trailer_iff_gen s x a
  · rintro ⟨x, a⟩ hvalid
    obtain ⟨rfl, rfl⟩ := (valid_trailer_iff s x a).mp hvalid
    rfl

/-! ## Changed bytes (R126) -/

/-- Any change of one byte of a valid sequence is detected. -/
theorem not_valid_set {f : Bytes} {k : Nat} {b c : Byte} (hvalid : valid f = true) (hb : f[k]? = some b) (hne : c ≠ b) :
    valid (f.set k c) = false := by
  obtain ⟨s, x, a, rfl⟩ := exists_body_trailer (two_le_length_of_valid hvalid)
  obtain ⟨hx, ha⟩ := (valid_trailer_iff s x a).mp hvalid
  have hk : k < s.length + 2 := length_trailer s x a ▸ (List.getElem?_eq_some_iff.mp hb).1
  rw [← Bool.not_eq_true]
  rcases Nat.lt_or_ge k s.length with hbody | hrest
  · rw [List.set_append_left _ _ hbody, valid_trailer_iff]
    rintro ⟨hxor, -⟩
    rw [List.getElem?_append_left hbody] at hb
    have hset := xorOf_set c hb
    rw [← hxor, ← hx, BitVec.xor_right_inj] at hset
    exact hne hset.symm
  · rw [List.set_append_right _ _ hrest]
    obtain hk | hk : k - s.length = 0 ∨ k - s.length = 1 := by omega
    · obtain rfl : x = b := by rw [List.getElem?_append_right hrest, hk] at hb; simpa using hb
      rw [hk, List.set_cons_zero, valid_trailer_iff, ← hx]
      exact fun h => hne h.1
    · obtain rfl : a = b := by rw [List.getElem?_append_right hrest, hk] at hb; simpa using hb
      rw [hk, List.set_cons_succ, List.set_cons_zero, valid_trailer_iff, ← ha]
      exact fun h => hne h.2

theorem xor_twoPow_ne {w j : Nat} (b : BitVec w) (hj : j < w) : b ^^^ BitVec.twoPow w j ≠ b := by
  intro h
  have hbit := congrArg (·.getLsbD j) h
  simp [hj] at hbit

/-- Flipping a clear bit adds its weight. -/
theorem xor_twoPow_of_clear {w j : Nat} {b : BitVec w} (hbit : b.getLsbD j = false) :
    b ^^^ BitVec.twoPow w j = b + BitVec.twoPow w j := by
  have hand : b &&& BitVec.twoPow w j = 0#w := by rw [BitVec.and_twoPow, hbit]; rfl
  rw [BitVec.add_eq_or_of_and_eq_zero _ _ hand]
  ext i hi
  rw [BitVec.getElem_xor, BitVec.getElem_or, BitVec.getElem_twoPow]
  by_cases hij : i = j
  · subst hij
    simp [← BitVec.getLsbD_eq_getElem hi, hbit]
  · simp [hij]

/-- Flipping a set bit takes its weight away. -/
theorem xor_twoPow_of_set {w j : Nat} {b : BitVec w} (hbit : b.getLsbD j = true) :
    b ^^^ BitVec.twoPow w j = b - BitVec.twoPow w j := by
  have hclear : (b ^^^ BitVec.twoPow w j).getLsbD j = false := by simp [hbit, BitVec.lt_of_getLsbD hbit]
  have hback := xor_twoPow_of_clear hclear
  rw [BitVec.xor_assoc, BitVec.xor_self, BitVec.xor_zero] at hback
  exact eq_sub_of_add_eq hback.symm

/-- Two flips of one bit position cancel in the sum where the two bits differ, and at bit 7, whose weight 128 is its own
negative modulo 256. -/
theorem flips_cancel {b c : Byte} {j : Nat} (h : j = 7 ∨ b.getLsbD j ≠ c.getLsbD j) :
    (b ^^^ BitVec.twoPow 8 j) + (c ^^^ BitVec.twoPow 8 j) = b + c := by
  have h7 : j = 7 → BitVec.twoPow 8 j + BitVec.twoPow 8 j = 0 := by rintro rfl; decide
  cases hb : b.getLsbD j <;> cases hc : c.getLsbD j
  case false.false =>
    rw [xor_twoPow_of_clear hb, xor_twoPow_of_clear hc]
    linear_combination h7 (by simpa [hb, hc] using h)
  case true.true =>
    rw [xor_twoPow_of_set hb, xor_twoPow_of_set hc]
    linear_combination - h7 (by simpa [hb, hc] using h)
  case false.true =>
    rw [xor_twoPow_of_clear hb, xor_twoPow_of_set hc]
    ring
  case true.false =>
    rw [xor_twoPow_of_set hb, xor_twoPow_of_clear hc]
    ring

theorem xorOf_set_set {s : Bytes} {k m : Nat} {b c b' c' : Byte} (hkm : k ≠ m) (hb : s[k]? = some b)
    (hc : s[m]? = some c) (hxor : b' ^^^ c' = b ^^^ c) : xorOf ((s.set k b').set m c') = xorOf s := by
  have hk := xorOf_set b' hb
  have hm := xorOf_set c' (s := s.set k b') (by rwa [List.getElem?_set_ne hkm])
  rw [← BitVec.xor_left_inj (b ^^^ c)]
  calc xorOf ((s.set k b').set m c') ^^^ (b ^^^ c)
      = xorOf ((s.set k b').set m c') ^^^ c ^^^ b := by ac_rfl
    _ = xorOf (s.set k b') ^^^ b ^^^ c' := by rw [hm]; ac_rfl
    _ = xorOf s ^^^ (b ^^^ c) := by rw [hk, BitVec.xor_assoc, hxor]

theorem addOf_set_set {s : Bytes} {k m : Nat} {b c b' c' : Byte} (hkm : k ≠ m) (hb : s[k]? = some b)
    (hc : s[m]? = some c) (hadd : b' + c' = b + c) : addOf ((s.set k b').set m c') = addOf s := by
  have hk := addOf_set b' hb
  have hm := addOf_set c' (s := s.set k b') (by rwa [List.getElem?_set_ne hkm])
  linear_combination hk + hm + hadd

/-- Two changed bytes of the XOR range that keep its XOR and its sum leave a valid sequence valid. -/
theorem valid_set_set {f : Bytes} {k m : Nat} {b c b' c' : Byte} (hvalid : valid f = true) (hk : k < f.length - 2)
    (hm : m < f.length - 2) (hkm : k ≠ m) (hb : f[k]? = some b) (hc : f[m]? = some c) (hxor : b' ^^^ c' = b ^^^ c)
    (hadd : b' + c' = b + c) : valid ((f.set k b').set m c') = true := by
  obtain ⟨s, x, a, rfl⟩ := exists_body_trailer (two_le_length_of_valid hvalid)
  rw [length_trailer, Nat.add_sub_cancel] at hk hm
  rw [List.getElem?_append_left hk] at hb
  rw [List.getElem?_append_left hm] at hc
  rw [List.set_append_left _ _ hk, List.set_append_left _ _ (by rwa [List.length_set]), valid_trailer_iff, addOf_append,
    xorOf_set_set hkm hb hc hxor, addOf_set_set hkm hb hc hadd, ← addOf_append]
  exact (valid_trailer_iff s x a).mp hvalid

/-- Settles O6. -/
theorem singleBitErrorsAreDetectedAndSomeDoubleOnesAreNot :
    Obligations.SingleBitErrorsAreDetectedAndSomeDoubleOnesAreNot := by
  refine ⟨fun f k j b hvalid hb hj => not_valid_set hvalid hb (xor_twoPow_ne b hj),
    fun f k m j b c hvalid hk hm hkm hb hc _ h => valid_set_set hvalid hk hm hkm hb hc ?_ (flips_cancel h), by decide⟩
  calc b ^^^ BitVec.twoPow 8 j ^^^ (c ^^^ BitVec.twoPow 8 j)
      = b ^^^ c ^^^ (BitVec.twoPow 8 j ^^^ BitVec.twoPow 8 j) := by ac_rfl
    _ = b ^^^ c := by rw [BitVec.xor_self, BitVec.xor_zero]

end Sys2Proof.Machine
end

section
/-! PROOFS. Unit FRS operation by operation (spec/41_reassembler.md R142 to R151, R155): the host operations but for FEED, and each
micro-step in the cases in which it stops or goes on. -/

namespace Sys2Proof.Machine

/-! ## The dispatch of the remaining operations -/

theorem exec_frsFlush (s : State) : exec .frsFlush s = .next { s with buf := [], ph := .q, xacc := 0, aacc := 0 } := rfl
theorem exec_frsGuard (s : State) : exec .frsGuard s = .next { s with buf := guardBuf s.cfg.bufBound s.buf } := rfl
theorem exec_frsS1 (s : State) : exec .frsS1 s = execFrsS1 s := rfl
theorem exec_frsS3 (s : State) : exec .frsS3 s = execFrsS3 s := rfl
theorem exec_frsS5 (s : State) : exec .frsS5 s = execFrsS5 s := rfl

/-! ## Reset, flush and CONNECT (R99, R150, R151) -/

/-- Settles O8: the reset state, with what has left and the outside agents as they were. -/
theorem resetClearsBothSidesInEveryState : Obligations.ResetClearsBothSidesInEveryState := exec_bfeReset

theorem connect_of_free {s : State} (h : rxFree s = true) : connect s = exec .frsFlush s := if_pos h

theorem connect_of_busy {s : State} (h : rxFree s = false) : connect s = .next (issue [.flush] s) := by
  simp only [connect, h, Bool.false_eq_true, if_false]

/-- A flush requested at phase Q is all that a cycle without a call and a command runs (R150). -/
theorem runAgents_of_flush {c : State} (hcall : c.host.call = none) (hcmd : c.host.cmdPin = none ∨ c.txOut ≠ []) (hph : c.ph = .q)
    (hflush : c.host.flushPin = true) :
    runAgents c = exec .frsFlush { c with host := { c.host with flushPin := false } } := by
  have hsel := (rxSelect_of_quiescent hph).trans (rxAccept_of_flush hflush)
  rw [runAgents_of_no_call (callSelect_of_no_call hcall), runSelected_of_none (txSelect_eq_none hcmd), andThen_next,
    runSelected_of_ok hsel rfl]

/-- Settles O9: FLUSH outright, its place before a byte, and CONNECT where the receive side is free and where it is not. -/
theorem flushEmptiesTheBufferAndGoesBeforeAByte : Obligations.FlushEmptiesTheBufferAndGoesBeforeAByte := by
  refine ⟨exec_frsFlush, ?_, rxFree_iff, fun s => connect_of_free, fun s => connect_of_busy⟩
  rintro s c o rfl hcfg hrst hcall hcmd hph hflush rfl
  rw [step_of_agents hrst hcfg, runAgents_of_flush hcall hcmd hph hflush]

/-! ## The guard (R142) -/

theorem guardBuf_of_gt {bound : Nat} {buf : Bytes} (h : bound < buf.length) :
    guardBuf bound buf = buf.drop (buf.length - bound) := if_pos h

theorem bufBound_of_wf {c : Cfg} (hc : c.wf = true) : 262 ≤ c.bufBound := by
  simp only [Cfg.wf, Bool.and_eq_true, decide_eq_true_eq] at hc
  exact hc.2

/-- On the buffers FEED.B reaches the guard never fires. -/
theorem guardBuf_append_byte {c : Cfg} {buf : Bytes} (b : Byte) (hc : c.wf = true) (hlen : buf.length ≤ 261) :
    guardBuf c.bufBound (buf ++ [b]) = buf ++ [b] := by
  have hbound := bufBound_of_wf hc
  exact guardBuf_of_le (by rw [List.length_append, List.length_singleton]; omega)

/-- Settles O14: both sides of the bound. -/
theorem guardDiscardsTheOldestExcess : Obligations.GuardDiscardsTheOldestExcess := by
  refine ⟨fun s h => ?_, fun s h => ?_, fun s b => guardBuf_append_byte b⟩
  · rw [exec_frsGuard, guardBuf_of_gt h]
  · rw [exec_frsGuard, guardBuf_of_le h]

/-! ## Search and discard (R143, R144) -/

theorem execFrsS1_of_no_sync {s : State} (h : find SYNC s.buf = none) :
    execFrsS1 s = .next (stop { s with i := none, buf := [] }) := by
  simp only [execFrsS1, h]

/-- The byte searched for does not occur before the index found. -/
theorem ne_of_mem_take_find {v : Byte} {s : Bytes} {k : Nat} (h : find v s = some k) : ∀ b ∈ s.take k, b ≠ v := by
  obtain ⟨-, hleast⟩ := (find_eq_some_iff v s k).mp h
  rintro b hb rfl
  obtain ⟨j, hj, rfl⟩ := List.mem_take_iff_getElem.mp hb
  rw [Nat.lt_min] at hj
  exact hleast j hj.1 (List.getElem?_eq_getElem hj.2)

/-- Settles O15: the search finds nothing, or the least index. -/
theorem syncSearchFindsTheFirstSyncByte : Obligations.SyncSearchFindsTheFirstSyncByte := by
  refine fun s => ⟨fun hnone => ?_, fun k hk hleast => ?_⟩
  · rw [exec_frsS1, execFrsS1_of_no_sync ((find_eq_none_iff SYNC s.buf).mpr hnone)]
    rfl
  · rw [exec_frsS1, execFrsS1_of_find ((find_eq_some_iff SYNC s.buf k).mpr ⟨hk, hleast⟩)]
    rfl

/-- Settles O16: the bytes before the index found are none of them the sync byte, and the one at it is. -/
theorem bytesBeforeTheSyncByteAreDropped : Obligations.BytesBeforeTheSyncByteAreDropped :=
  ⟨fun _ _ => execFrsS2_of_le, fun _ _ hk => ⟨find_lt_length hk, find_drop_head hk, ne_of_mem_take_find hk⟩⟩

/-! ## Header, length byte and candidate (R145, R146, R147) -/

theorem execFrsS3_of_short_header {s : State} (h : s.buf.length < 5) : execFrsS3 s = .next (stop s) := by
  have hhdr : headerShort s.buf = true := decide_eq_true h
  simp only [execFrsS3, hhdr, if_true]

theorem execFrsS5_of_incomplete {s : State} (h : s.buf.length < s.L) : execFrsS5 s = .next (stop s) := by
  have hcand : candidateShort s.buf s.L = true := decide_eq_true h
  simp only [execFrsS5, hcand, if_true]

/-- The longest candidate (R83). -/
theorem totalLength_le (d : Byte) : totalLength d ≤ 262 := by
  unfold totalLength
  omega

/-- Settles O17: the two sides of both length tests, and the length byte with the bounds of its sum. -/
theorem headerLengthAndCandidateSteps : Obligations.HeaderLengthAndCandidateSteps := by
  intro s
  rw [exec_frsS3, exec_frsS4, exec_frsS5]
  exact ⟨execFrsS3_of_short_header, execFrsS3_of_header,
    fun v hv => ⟨execFrsS4_of_length_byte hv, seven_le_totalLength v, totalLength_le v⟩,
    execFrsS5_of_incomplete, execFrsS5_of_complete⟩

/-! ## The candidate's verdict (R148, R129) -/

/-- What validation leaves in the accumulators. -/
theorem accValidate_of_two_le {f : Bytes} (h : 2 ≤ f.length) :
    accValidate f = (xorOf (f.take (f.length - 2)), addOf (f.take (f.length - 1)), valid f) := by
  obtain ⟨body, x, a, rfl⟩ := exists_body_trailer h
  rw [accValidate_trailer]
  simp

/-- Settles O18: the two verdicts on the candidate, with the accumulators and the emission written out. -/
theorem candidateIsEmittedOrOneByteIsDropped : Obligations.CandidateIsEmittedOrOneByteIsDropped := by
  intro s f h7 hlen hf
  have hflen : f.length = s.L := by rw [hf, List.length_take_of_le hlen]
  have hacc := accValidate_of_two_le (f := f) (by omega)
  rw [hflen] at hacc
  rw [exec_frsS6]
  refine ⟨fun hv => ?_, fun hv => ?_⟩
  · rw [execFrsS6_of_valid h7 hlen hf hv, emitFrame_eq_update, hacc]
    rfl
  · rw [execFrsS6_of_invalid h7 hlen hf hv, hacc]
    rfl

/-! ## The table of transfers (R155) -/

section AtPhase
variable {s : State}

theorem microStep_of_s1 (h : s.ph = .s1) : microStep s = some (execFrsS1 s) := by simp only [microStep, h]
theorem microStep_of_s2 (h : s.ph = .s2) : microStep s = some (execFrsS2 s) := by simp only [microStep, h]
theorem microStep_of_s3 (h : s.ph = .s3) : microStep s = some (execFrsS3 s) := by simp only [microStep, h]
theorem microStep_of_s4 (h : s.ph = .s4) : microStep s = some (execFrsS4 s) := by simp only [microStep, h]
theorem microStep_of_s5 (h : s.ph = .s5) : microStep s = some (execFrsS5 s) := by simp only [microStep, h]
theorem microStep_of_s6 (h : s.ph = .s6) : microStep s = some (execFrsS6 s) := by simp only [microStep, h]

end AtPhase

/-- Settles O20: at each phase the invariant gives what the micro-step needs, and its tests choose the row. -/
theorem phaseTransitionsAreTheTable : Obligations.PhaseTransitionsAreTheTable := by
  intro s hinv hne
  have hphase := hinv.phase
  unfold phaseOk at hphase
  cases hph : s.ph <;> simp only [hph] at hphase
  case q => exact absurd hph hne
  case s1 =>
    rw [microStep_of_s1 hph]
    rcases execFrsS1_cases s with ⟨hnone, hstep⟩ | ⟨k, hk, hstep⟩
    · have hmem : 0xF7 ∉ s.buf := fun hin => (find_eq_none_iff SYNC s.buf).mp hnone _ hin rfl
      exact ⟨_, congrArg some hstep, by simpa using hmem⟩
    · have hmem : 0xF7 ∈ s.buf := List.mem_of_getElem? ((find_eq_some_iff SYNC s.buf k).mp hk).1
      exact ⟨_, congrArg some hstep, by simpa using hmem⟩
  case s2 =>
    obtain ⟨⟨k, hi, hk⟩, -⟩ := hphase
    exact ⟨_, (microStep_of_s2 hph).trans (congrArg some (execFrsS2_of_le hi (find_lt_length hk).le)), by simp [hi]⟩
  case s3 =>
    rw [microStep_of_s3 hph]
    rcases Nat.lt_or_ge s.buf.length 5 with hshort | hlong
    · exact ⟨_, congrArg some (execFrsS3_of_short_header hshort), by simp [hshort]⟩
    · exact ⟨_, congrArg some (execFrsS3_of_header hlong), by simp [hlong]⟩
  case s4 =>
    obtain ⟨-, hlong, -⟩ := hphase
    have hd : s.buf[4]? = some s.buf[4] := List.getElem?_eq_getElem hlong
    exact ⟨_, (microStep_of_s4 hph).trans (congrArg some (execFrsS4_of_length_byte hd)), by simp⟩
  case s5 =>
    rw [microStep_of_s5 hph]
    rcases Nat.lt_or_ge s.buf.length s.L with hshort | hlong
    · exact ⟨_, congrArg some (execFrsS5_of_incomplete hshort), by simp [hshort]⟩
    · exact ⟨_, congrArg some (execFrsS5_of_complete hlong), by simp [hlong]⟩
  case s6 =>
    obtain ⟨-, -, hL, hlen, -⟩ := hphase
    have h7 : 7 ≤ s.L := hL ▸ seven_le_totalLength s.d
    rw [microStep_of_s6 hph]
    cases hv : valid (s.buf.take s.L) with
    | true => exact ⟨_, congrArg some (execFrsS6_of_valid h7 hlen rfl hv), by simp [emitFrame]⟩
    | false => exact ⟨_, congrArg some (execFrsS6_of_invalid h7 hlen rfl hv), by simp⟩

end Sys2Proof.Machine
end

section
/-! PROOFS. The function `extract` (spec/41_reassembler.md R149, R158, R161, R162) and the relation it computes: noise, false syncs and
frames taken off the front, one after the other, until a quiescent buffer is left. -/

namespace Sys2Proof.Machine

/-! ## The passes that end the loop (R149, R158) -/

theorem extract_of_no_sync {s : Bytes} (h : find SYNC s = none) : extract s = ([], []) := by
  rw [extract, extractWithin_succ, h]

/-- The header, or the candidate it declares, is not complete. -/
theorem extract_of_incomplete {s : Bytes} {k : Nat} (hk : find SYNC s = some k)
    (hshort : ∀ d, (s.drop k)[4]? = some d → (s.drop k).length < totalLength d) : extract s = (s.drop k, []) := by
  rw [extract, extractWithin_succ, hk]
  cases hd : (s.drop k)[4]? with
  | none => simp only [hd]
  | some d => simp only [hd, if_pos (hshort d hd)]

theorem length_lt_five_of_getElem?_four {b : Bytes} (hd : b[4]? = none) : b.length < 5 :=
  Nat.lt_succ_of_le (List.getElem?_eq_none_iff.mp hd)

theorem getElem?_four_eq_some {b : Bytes} {d : Byte} (hd : b[4]? = some d) : 5 ≤ b.length ∧ b.getD 4 0 = d :=
  ⟨(List.getElem?_eq_some_iff.mp hd).1, by rw [List.getD_eq_getElem?_getD, hd, Option.getD_some]⟩

/-- Settles O21: the rule's five cases, each an equation of `extract`. -/
theorem extractSatisfiesItsRecursion : Obligations.ExtractSatisfiesItsRecursion := by
  intro s
  cases hk : find SYNC s with
  | none => exact extract_of_no_sync hk
  | some k =>
    cases hd : (s.drop k)[4]? with
    | none =>
      have hheader := length_lt_five_of_getElem?_four hd
      simp only [if_pos hheader]
      exact extract_of_incomplete hk fun d hd' => absurd (hd.symm.trans hd') (by simp)
    | some d =>
      obtain ⟨hheader, hgetD⟩ := getElem?_four_eq_some hd
      simp only [if_neg (Nat.not_lt.mpr hheader), hgetD]
      split
      · rename_i hshort
        exact extract_of_incomplete hk fun d' hd' => by cases hd.symm.trans hd'; exact hshort
      · rename_i hlen
        cases hv : valid ((s.drop k).take (d.toNat + 7)) with
        | true => exact extract_of_valid hk hd (Nat.not_lt.mp hlen) hv
        | false => exact extract_of_invalid hk hd (Nat.not_lt.mp hlen) hv

/-! ## Noise before the first sync byte (R144, R163) -/

/-- What stands before the first sync byte plays no part. -/
theorem extract_drop_find {s : Bytes} {k : Nat} (hk : find SYNC s = some k) : extract (s.drop k) = extract s := by
  rw [extract, extract, extractWithin_fuel _ (s.length + 1) (s.drop k) (Nat.lt_succ_self _)
    (by rw [List.length_drop]; omega), extractWithin_succ, extractWithin_succ, hk, find_of_head (find_drop_head hk)]
  simp only [List.drop_zero]

theorem find_noise_append {v : Byte} {n : Bytes} (hn : ∀ b ∈ n, b ≠ v) (t : Bytes) :
    find v (n ++ t) = (find v t).map (· + n.length) := by
  have hnone : n.findIdx? (fun b => b == v) = none := (find_eq_none_iff v n).mpr hn
  rw [find, List.findIdx?_append, hnone, Option.none_or]
  rfl

theorem extract_noise_append {n : Bytes} (hn : ∀ b ∈ n, b ≠ SYNC) (t : Bytes) : extract (n ++ t) = extract t := by
  have hfind := find_noise_append hn t
  cases hk : find SYNC t with
  | none =>
    rw [hk] at hfind
    rw [extract_of_no_sync hk, extract_of_no_sync hfind]
  | some k =>
    rw [hk, Option.map_some, Nat.add_comm] at hfind
    rw [← extract_drop_find hk, ← extract_drop_find hfind, List.drop_length_add_append]

/-! ## Quiescent buffers (R158) -/

/-- Nothing is buffered, or a candidate has begun and is not complete. -/
theorem quiescent_iff (s : Bytes) :
    quiescent s = true ↔ s = [] ∨ (s[0]? = some SYNC ∧ ∀ d, s[4]? = some d → s.length < totalLength d) := by
  cases s with
  | nil => simp [quiescent]
  | cons b t =>
    cases hd : (b :: t)[4]? with
    | none =>
      have hheader := length_lt_five_of_getElem?_four hd
      simp only [quiescent, headerShort, hd, decide_eq_true hheader, Bool.true_or]
      simp
    | some d =>
      have hheader : ¬ (b :: t).length < 5 := Nat.not_lt.mpr (getElem?_four_eq_some hd).1
      simp only [quiescent, headerShort, candidateShort, hd, decide_eq_false hheader, Bool.false_or]
      simp

theorem quiescent_iff_three_cases (s : Bytes) :
    quiescent s = true ↔ s = [] ∨ (s[0]? = some SYNC ∧ s.length < 5) ∨
      (s[0]? = some SYNC ∧ 5 ≤ s.length ∧ s.length < totalLength (s.getD 4 0)) := by
  rw [quiescent_iff, ← and_or_left]
  refine or_congr_right (and_congr_right fun _ => ?_)
  cases hd : s[4]? with
  | none =>
    have hheader := length_lt_five_of_getElem?_four hd
    simp [hheader]
  | some d =>
    obtain ⟨hheader, hgetD⟩ := getElem?_four_eq_some hd
    simp only [Option.some.injEq, forall_eq', hgetD, Nat.not_lt.mpr hheader, hheader, false_or, true_and]

theorem extract_of_quiescent {s : Bytes} (h : quiescent s = true) : extract s = (s, []) := by
  rcases (quiescent_iff s).mp h with rfl | ⟨hsync, hshort⟩
  · rfl
  · exact extract_of_incomplete (find_of_head hsync) hshort

/-- The longest quiescent buffer is one byte short of the longest candidate (R159). -/
theorem length_le_of_quiescent {s : Bytes} (h : quiescent s = true) : s.length ≤ 261 := by
  rcases (quiescent_iff_three_cases s).mp h with rfl | ⟨-, hshort⟩ | ⟨-, -, hshort⟩
  · exact Nat.zero_le _
  · omega
  · have := totalLength_le (s.getD 4 0)
    omega

/-! ## Candidates (R82, R147) -/

/-- A complete candidate: a sync byte, a length byte `d`, and the bytes that it declares. -/
structure IsCandidate (f : Bytes) (d : Byte) : Prop where
  sync : f[0]? = some SYNC
  header : f[4]? = some d
  complete : f.length = totalLength d

/-- A well-formed frame is a candidate with both checksums right. -/
theorem wellFormedFrame_iff (f : Bytes) : wellFormedFrame f = true ↔ (∃ d, IsCandidate f d) ∧ valid f = true := by
  constructor
  · intro h
    unfold wellFormedFrame at h
    split at h
    · rename_i sync d hsync hd
      simp only [Bool.and_eq_true, decide_eq_true_eq] at h
      obtain ⟨⟨⟨-, rfl⟩, hlen⟩, hv⟩ := h
      exact ⟨⟨d, hsync, hd, hlen⟩, hv⟩
    · exact absurd h Bool.false_ne_true
  · rintro ⟨⟨d, hsync, hd, hlen⟩, hv⟩
    have h7 : 7 ≤ f.length := hlen ▸ seven_le_totalLength d
    simp only [wellFormedFrame, hsync, hd, hv, decide_eq_true h7, decide_eq_true hlen, decide_true, Bool.and_self]

namespace IsCandidate

variable {f : Bytes} {d : Byte}

theorem seven_le_length (h : IsCandidate f d) : 7 ≤ f.length := h.complete ▸ seven_le_totalLength d

/-- At the head of a longer buffer it is what the loop reads. -/
theorem append (h : IsCandidate f d) (t : Bytes) :
    find SYNC (f ++ t) = some 0 ∧ ((f ++ t).drop 0)[4]? = some d ∧ totalLength d ≤ ((f ++ t).drop 0).length ∧
      ((f ++ t).drop 0).take (totalLength d) = f ∧ ((f ++ t).drop 0).drop (totalLength d) = t ∧
      ((f ++ t).drop 0).drop 1 = f.drop 1 ++ t := by
  have h7 := h.seven_le_length
  rw [List.drop_zero, ← h.complete]
  refine ⟨find_of_head ?_, ?_, ?_, List.take_left, List.drop_left, List.drop_append_of_le_length (by omega)⟩
  · rw [List.getElem?_append_left (by omega), h.sync]
  · rw [List.getElem?_append_left (by omega), h.header]
  · simp

theorem extract_append_of_valid (h : IsCandidate f d) (hv : valid f = true) (t : Bytes) :
    extract (f ++ t) = ((extract t).1, f :: (extract t).2) := by
  obtain ⟨hfind, hd, hlen, htake, hdrop, -⟩ := h.append t
  rw [extract_of_valid hfind hd hlen (by rwa [htake]), htake, hdrop]

theorem extract_append_of_invalid (h : IsCandidate f d) (hv : valid f = false) (t : Bytes) :
    extract (f ++ t) = extract (f.drop 1 ++ t) := by
  obtain ⟨hfind, hd, hlen, htake, -, hdrop⟩ := h.append t
  rw [extract_of_invalid hfind hd hlen (by rwa [htake]), hdrop]

end IsCandidate

/-- A buffer that begins with a sync byte is quiescent, or a candidate stands at its head. -/
theorem quiescent_or_candidate {s : Bytes} (hsync : s[0]? = some SYNC) :
    quiescent s = true ∨ ∃ f t d, s = f ++ t ∧ IsCandidate f d := by
  by_cases hshort : ∀ d, s[4]? = some d → s.length < totalLength d
  · exact .inl ((quiescent_iff s).mpr (.inr ⟨hsync, hshort⟩))
  · push Not at hshort
    obtain ⟨d, hd, hlen⟩ := hshort
    have h7 := seven_le_totalLength d
    refine .inr ⟨s.take (totalLength d), s.drop (totalLength d), d, (List.take_append_drop ..).symm, ?_, ?_,
      List.length_take_of_le hlen⟩
    · rw [List.getElem?_take_of_lt (by omega), hsync]
    · rw [List.getElem?_take_of_lt (by omega), hd]

/-! ## The relation that `extract` computes -/

/-- `Extracts s r fs`: taking noise, false syncs and frames off the front of `s` leaves the quiescent buffer `r` and releases the
frames `fs`. `extracts_iff` says that it is `extract`. -/
inductive Extracts : Bytes → Bytes → List Bytes → Prop where
  | done {s : Bytes} (hs : quiescent s = true) : Extracts s s []
  | noise {n t r : Bytes} {fs : List Bytes} (hn : ∀ b ∈ n, b ≠ SYNC) (h : Extracts t r fs) : Extracts (n ++ t) r fs
  | falseSync {f t r : Bytes} {fs : List Bytes} {d : Byte} (hf : IsCandidate f d) (hv : valid f = false)
      (h : Extracts (f.drop 1 ++ t) r fs) : Extracts (f ++ t) r fs
  | frame {f t r : Bytes} {fs : List Bytes} (hf : wellFormedFrame f = true) (h : Extracts t r fs) : Extracts (f ++ t) r (f :: fs)

namespace Extracts

variable {s r : Bytes} {fs : List Bytes}

theorem extract_eq (h : Extracts s r fs) : extract s = (r, fs) := by
  induction h with
  | done hs => exact extract_of_quiescent hs
  | noise hn _ ih => rw [extract_noise_append hn, ih]
  | falseSync hf hv _ ih => rw [hf.extract_append_of_invalid hv, ih]
  | frame hf _ ih =>
    obtain ⟨⟨d, hcand⟩, hv⟩ := (wellFormedFrame_iff _).mp hf
    rw [hcand.extract_append_of_valid hv, ih]

/-- Every buffer has a result: each constructor that goes on shortens it (R160). -/
theorem total (s : Bytes) : ∃ r fs, Extracts s r fs := by
  induction hlength : s.length using Nat.strong_induction_on generalizing s with
  | _ len ih =>
    subst hlength
    cases hk : find SYNC s with
    | none =>
      have hnoise := noise ((find_eq_none_iff SYNC s).mp hk) (done (s := []) rfl)
      exact ⟨[], [], by rwa [List.append_nil] at hnoise⟩
    | some k =>
      suffices hhead : ∃ r fs, Extracts (s.drop k) r fs by
        obtain ⟨r, fs, h⟩ := hhead
        exact ⟨r, fs, List.take_append_drop k s ▸ noise (ne_of_mem_take_find hk) h⟩
      have hle : (s.drop k).length ≤ s.length := by rw [List.length_drop]; omega
      rcases quiescent_or_candidate (find_drop_head hk) with hq | ⟨f, t, d, hs, hcand⟩
      · exact ⟨_, _, done hq⟩
      · have h7 := hcand.seven_le_length
        rw [hs, List.length_append] at hle
        rw [hs]
        cases hv : valid f with
        | true =>
          obtain ⟨r, fs, h⟩ := ih t.length (by omega) t rfl
          exact ⟨r, f :: fs, frame ((wellFormedFrame_iff f).mpr ⟨⟨d, hcand⟩, hv⟩) h⟩
        | false =>
          obtain ⟨r, fs, h⟩ := ih _ (by rw [List.length_append, List.length_drop]; omega) (f.drop 1 ++ t) rfl
          exact ⟨r, fs, falseSync hcand hv h⟩

theorem quiescent_rest (h : Extracts s r fs) : quiescent r = true := by
  induction h with
  | done hs => exact hs
  | noise _ _ ih => exact ih
  | falseSync _ _ _ ih => exact ih
  | frame _ _ ih => exact ih

theorem wellFormed_frames (h : Extracts s r fs) : ∀ f ∈ fs, wellFormedFrame f = true := by
  induction h with
  | done => exact fun _ hmem => absurd hmem List.not_mem_nil
  | noise _ _ ih => exact ih
  | falseSync _ _ _ ih => exact ih
  | frame hf _ ih => exact List.forall_mem_cons.mpr ⟨hf, ih⟩

/-- Bytes that follow meet what the bytes before them left. -/
theorem append {t r' : Bytes} {fs' : List Bytes} (h : Extracts s r fs) (h' : Extracts (r ++ t) r' fs') :
    Extracts (s ++ t) r' (fs ++ fs') := by
  induction h with
  | done => exact h'
  | noise hn _ ih => exact List.append_assoc .. ▸ noise hn (ih h')
  | falseSync hf hv _ ih => exact List.append_assoc .. ▸ falseSync hf hv (List.append_assoc .. ▸ ih h')
  | frame hf _ ih => exact List.append_assoc .. ▸ frame hf (ih h')

end Extracts

theorem extracts_iff (s r : Bytes) (fs : List Bytes) : Extracts s r fs ↔ extract s = (r, fs) := by
  refine ⟨Extracts.extract_eq, fun h => ?_⟩
  obtain ⟨r', fs', h'⟩ := Extracts.total s
  cases h'.extract_eq.symm.trans h
  exact h'

theorem extracts_extract (s : Bytes) : Extracts s (extract s).1 (extract s).2 := (extracts_iff ..).mpr rfl

/-! ## What follows for every stream (R158, R159, R161, R162) -/

theorem extract_eq_self_iff (s : Bytes) : extract s = (s, []) ↔ quiescent s = true :=
  ⟨fun h => ((extracts_iff ..).mpr h).quiescent_rest, extract_of_quiescent⟩

/-- Settles O22: what is left is quiescent, and quiescence bounds the length; at the other phases the invariant does. -/
theorem quiescentBuffersAreTheThreeCases : Obligations.QuiescentBuffersAreTheThreeCases := by
  refine ⟨fun s => ?_, fun s => ?_, fun s h => ?_, fun s hinv => ⟨hinv.bound, fun hph => ?_⟩⟩
  · exact (extract_eq_self_iff s).trans (quiescent_iff_three_cases s)
  · exact extract_of_quiescent (extracts_extract s).quiescent_rest
  · exact length_le_of_quiescent ((extract_eq_self_iff s).mp h)
  · have hphase := hinv.phase
    simp only [phaseOk, hph] at hphase
    exact length_le_of_quiescent hphase.1

/-- Settles O23: the second chunk meets what the first left. -/
theorem chunkingDoesNotMatter : Obligations.ChunkingDoesNotMatter := by
  intro s c1 c2 s1 s2 f1 f2 _ h1 h2
  exact (((extracts_iff ..).mpr h1).append ((extracts_iff ..).mpr h2)).extract_eq

/-- Settles O25: a released frame is well-formed, which contains the rest. -/
theorem emittedFramesAreWellFormed : Obligations.EmittedFramesAreWellFormed := by
  intro s f hmem
  have hwf := (extracts_extract s).wellFormed_frames f hmem
  obtain ⟨⟨d, hcand⟩, hv⟩ := (wellFormedFrame_iff f).mp hwf
  have hgetD := (getElem?_four_eq_some hcand.header).2
  exact ⟨hcand.seven_le_length, hcand.sync, hgetD ▸ hcand.complete, hv, hwf⟩

end Sys2Proof.Machine
end

section
/-! PROOFS. The loop of FRS.FEED.B beyond its first frame (spec/41_reassembler.md R141, R149, R153): a frame that goes out, is decoded
and lets the loop go on; the last passes, which release none; and so FEED.B as `extract`, waiting for the state consumer or not. -/

namespace Sys2Proof.Machine

/-! ## A loop that releases no frame ends at phase Q (R155) -/

theorem loopRuns_no_sync {s : State} (hph : s.ph = .s1) (ho : rxOutputsTaken s) (h : find SYNC s.buf = none) :
    LoopRuns 1 s (stop { s with i := none, buf := [] }) :=
  .of_microStep ho ((microStep_of_s1 hph).trans (congrArg some (execFrsS1_of_no_sync h)))

/-- An incomplete header stops the loop at S3, an incomplete candidate at S5. -/
theorem loopRuns_incomplete {s : State} {k : Nat} (hph : s.ph = .s1) (ho : rxOutputsTaken s) (hk : find SYNC s.buf = some k)
    (hshort : ∀ d, (s.buf.drop k)[4]? = some d → (s.buf.drop k).length < totalLength d) :
    ∃ n ≤ 5, ∃ d L, LoopRuns n s { s with ph := .q, i := some k, buf := s.buf.drop k, d := d, L := L } := by
  have hs3 := (loopRuns_s1 hph ho hk).trans (loopRuns_s2 rfl ho rfl (find_lt_length hk).le)
  cases hd : (s.buf.drop k)[4]? with
  | none =>
    have hstop := congrArg some (execFrsS3_of_short_header (s := goto .s3 { s with i := some k, buf := s.buf.drop k })
      (length_lt_five_of_getElem?_four hd))
    exact ⟨3, by omega, s.d, s.L, hs3.trans (.of_microStep ho hstop)⟩
  | some d =>
    have hs5 := (hs3.trans (loopRuns_s3 rfl ho (getElem?_four_eq_some hd).1)).trans (loopRuns_s4 rfl ho hd)
    have hstop := congrArg some (execFrsS5_of_incomplete
      (s := goto .s5 { s with i := some k, buf := s.buf.drop k, d := d, L := totalLength d }) (hshort d hd))
    exact ⟨5, le_rfl, d, totalLength d, hs5.trans (.of_microStep ho hstop)⟩

/-- `t` is `s` at phase Q with the buffer `r`; only the working latches may differ. -/
def StoppedWith (r : Bytes) (s t : State) : Prop :=
  t = { s with
    buf := r, ph := .q, i := t.i, d := t.d, L := t.L, dev := t.dev, sub := t.sub, cmd := t.cmd, xacc := t.xacc, aacc := t.aacc }

theorem StoppedWith.of_afterInvalid {r g : Bytes} {k : Nat} {d : Byte} {s t : State}
    (h : StoppedWith r (afterInvalid k d g s) t) : StoppedWith r s t := h

/-- Where `extract` releases no frame the loop ends with what it leaves, whatever the consumers are ready for. -/
theorem loopRuns_no_frame {s : State} {r : Bytes} (hph : s.ph = .s1) (ho : rxOutputsTaken s) (h : extract s.buf = (r, [])) :
    ∃ (n : Nat) (t : State), LoopRuns n s t ∧ StoppedWith r s t ∧ n ≤ 6 * s.buf.length + 5 := by
  induction hlength : s.buf.length using Nat.strong_induction_on generalizing s with
  | _ len ih =>
    subst hlength
    cases hk : find SYNC s.buf with
    | none =>
      cases (extract_of_no_sync hk).symm.trans h
      exact ⟨1, _, loopRuns_no_sync hph ho hk, rfl, by omega⟩
    | some k =>
      by_cases hshort : ∀ d, (s.buf.drop k)[4]? = some d → (s.buf.drop k).length < totalLength d
      · cases (extract_of_incomplete hk hshort).symm.trans h
        obtain ⟨n, hn, d, L, hrun⟩ := loopRuns_incomplete hph ho hk hshort
        exact ⟨n, _, hrun, rfl, by omega⟩
      · push Not at hshort
        obtain ⟨d, hd, hlen⟩ := hshort
        cases hv : valid ((s.buf.drop k).take (totalLength d)) with
        | true =>
          rw [extract_of_valid hk hd hlen hv] at h
          exact absurd h (by simp)
        | false =>
          rw [extract_of_invalid hk hd hlen hv] at h
          have hshorter : ((s.buf.drop k).drop 1).length < s.buf.length := by
            have hklt := find_lt_length hk
            simp only [List.length_drop]
            omega
          obtain ⟨n, t, hrun, hstop, hn⟩ := ih _ hshorter (s := afterInvalid k d _ s) rfl ho h rfl
          exact ⟨n + 6, t, (loopRuns_invalid hph ho hk hd hlen rfl hv).trans hrun, hstop.of_afterInvalid, by omega⟩

/-! ## The ports with a consumer that takes everything, or nothing (R100, R153) -/

theorem emitFrame_of_ready (f : Bytes) {s : State} (hfrm : s.frmOut = []) (h : s.host.levels.frmReady = true) :
    emitFrame f s = { s with
      emitted := s.emitted ++ [f], decSlot := some f, frmTaken := s.frmTaken ++ frameBeats f } := by
  rw [emitFrame_eq_update, h, hfrm]
  rfl

/-- Nothing of the push waits: the consumer takes it, or there is nothing to take. -/
theorem pushStates_of_taken {sts : List DeviceState} {s : State} (hst : s.stOut = [])
    (h : s.host.levels.stReady = true ∨ sts = []) :
    pushStates sts s = { s with pushed := s.pushed ++ sts, stTaken := s.stTaken ++ sts.map dsw } := by
  rw [pushStates, offerSt_eq_update, hst]
  rcases h with h | rfl
  · rw [h]
    rfl
  · simp

theorem pushStates_of_not_ready (sts : List DeviceState) {s : State} (h : s.host.levels.stReady = false) :
    pushStates sts s = { s with pushed := s.pushed ++ sts, stOut := s.stOut ++ sts.map dsw } := by
  rw [pushStates, offerSt_eq_update, h]
  rfl

theorem rxAdvance_of_decSlot {s : State} {f : Bytes} (hfrm : s.frmOut = []) (hslot : s.decSlot = some f) :
    rxAdvance s = some (.next (pushStates (statesOf s.cfg f) { s with decSlot := none })) := by
  simp only [rxAdvance, hfrm, hslot, decodeEmitted_eq]

/-- While words of a frame's DeviceStates are offered the engine waits (R29). -/
theorem rxAdvance_of_stOut_ne_nil {s : State} (hfrm : s.frmOut = []) (hslot : s.decSlot = none) (hst : s.stOut ≠ []) :
    rxAdvance s = none := by
  obtain ⟨w, ws, hout⟩ := List.exists_cons_of_ne_nil hst
  simp only [rxAdvance, hfrm, hslot, hout]

/-! ## A frame that the frame consumer takes, and its decoding (R153) -/

/-- `t` is `s` after `f` went out on the frame port and its DeviceStates were pushed, at S1 with the latches loaded from it. -/
def DecodedFrom (f : Bytes) (s t : State) : Prop :=
  t = pushStates (statesOf s.cfg f) { s with
    buf := t.buf, ph := .s1, i := t.i, d := f.getD 4 0, L := f.length, dev := f.getD 1 0, sub := f.getD 2 0, cmd := f.getD 3 0,
    xacc := t.xacc, aacc := t.aacc, emitted := s.emitted ++ [f], frmTaken := s.frmTaken ++ frameBeats f }

/-- The engine's next action after the emission is the decoding. -/
theorem EmittedFrom.decoded {f : Bytes} {s t : State} (h : EmittedFrom f s t) (ho : rxOutputsTaken s)
    (hready : s.host.levels.frmReady = true) :
    ∃ u, rxAdvance t = some (.next u) ∧ DecodedFrom f s u ∧ u.buf = t.buf := by
  obtain ⟨hfrm, -, hslot⟩ := ho
  unfold EmittedFrom at h
  rw [emitFrame_of_ready f hfrm hready] at h
  have hadvance : rxAdvance t = some (.next (pushStates (statesOf t.cfg f) { t with decSlot := none })) :=
    rxAdvance_of_decSlot (by rw [h]; exact hfrm) (by rw [h])
  refine ⟨_, hadvance, ?_, pushStates_buf ..⟩
  have hcfg : t.cfg = s.cfg := by rw [h]
  have hfields : { t with decSlot := none } = { s with
      buf := t.buf, ph := .s1, i := t.i, d := f.getD 4 0, L := f.length, dev := f.getD 1 0, sub := f.getD 2 0,
      cmd := f.getD 3 0, xacc := t.xacc, aacc := t.aacc, emitted := s.emitted ++ [f],
      frmTaken := s.frmTaken ++ frameBeats f } := by
    rw [h, hslot]
  rw [DecodedFrom, hfields, hcfg, pushStates_buf, pushStates_i, pushStates_xacc, pushStates_aacc]

/-- The loop up to the decoding of the first frame, at most seven actions for each byte that leaves the buffer. -/
theorem loopRuns_decoded_frame {s : State} {r f : Bytes} {fs : List Bytes} (hph : s.ph = .s1) (ho : rxOutputsTaken s)
    (hready : s.host.levels.frmReady = true) (h : extract s.buf = (r, f :: fs)) :
    ∃ (n : Nat) (skipped : Bytes) (t : State), LoopRuns n s t ∧ DecodedFrom f s t ∧ n + 7 * t.buf.length ≤ 7 * s.buf.length ∧
      s.buf = skipped ++ f ++ t.buf ∧ extract t.buf = (r, fs) := by
  obtain ⟨n, skipped, t, hrun, hemit, hn, hbuf, hrest, hf⟩ := loopRuns_first_frame hph ho h
  obtain ⟨u, hadvance, hdec, hubuf⟩ := hemit.decoded ho hready
  have hlength := congrArg List.length hbuf
  simp only [List.length_append] at hlength
  refine ⟨1 + n, skipped, u, hrun.trans (.single hadvance), hdec, ?_, ?_, ?_⟩
  · rw [hubuf]
    omega
  · rw [hubuf, hbuf]
  · rw [hubuf, hrest]

/-! ## Frames that go out without a wait (R29, R149, R153) -/

/-- Nothing of the frame `f` waits for a consumer of `s`. -/
def GoesOut (s : State) (f : Bytes) : Prop :=
  s.host.levels.frmReady = true ∧ (s.host.levels.stReady = true ∨ statesOf s.cfg f = [])

/-- `s` with the frames `fs` emitted and taken, and their DeviceStates pushed and taken. -/
def delivered (fs : List Bytes) (s : State) : State :=
  { s with
    emitted := s.emitted ++ fs, pushed := s.pushed ++ fs.flatMap (statesOf s.cfg),
    frmTaken := s.frmTaken ++ fs.flatMap frameBeats, stTaken := s.stTaken ++ (fs.flatMap (statesOf s.cfg)).map dsw }

theorem delivered_nil (s : State) : delivered [] s = s := by simp [delivered]

theorem delivered_append (fs gs : List Bytes) (s : State) : delivered (fs ++ gs) s = delivered gs (delivered fs s) := by
  simp [delivered]

/-- `t` is `s` at phase `p` with the frames `fs` delivered; the buffer and the working latches may differ otherwise. -/
def DeliveredFrom (p : Phase) (fs : List Bytes) (s t : State) : Prop :=
  t = { delivered fs s with
    buf := t.buf, ph := p, i := t.i, d := t.d, L := t.L, dev := t.dev, sub := t.sub, cmd := t.cmd, xacc := t.xacc,
    aacc := t.aacc }

namespace DeliveredFrom

variable {p : Phase} {fs : List Bytes} {s t u : State}

theorem ph_eq (h : DeliveredFrom p fs s t) : t.ph = p := by rw [h]
theorem cfg_eq (h : DeliveredFrom p fs s t) : t.cfg = s.cfg := by rw [h, delivered]
theorem host_eq (h : DeliveredFrom p fs s t) : t.host = s.host := by rw [h, delivered]
theorem emitted_eq (h : DeliveredFrom p fs s t) : t.emitted = s.emitted ++ fs := by rw [h, delivered]
theorem pushed_eq (h : DeliveredFrom p fs s t) : t.pushed = s.pushed ++ fs.flatMap (statesOf s.cfg) := by rw [h, delivered]
theorem outputsTaken_iff (h : DeliveredFrom p fs s t) : rxOutputsTaken t ↔ rxOutputsTaken s := by rw [h]; rfl

theorem refl (s : State) : DeliveredFrom s.ph [] s s := by rw [DeliveredFrom, delivered_nil]

theorem trans {p' : Phase} {gs : List Bytes} (h : DeliveredFrom p fs s t) (k : DeliveredFrom p' gs t u) :
    DeliveredFrom p' (fs ++ gs) s u := by
  unfold DeliveredFrom at h k ⊢
  rw [h] at k
  rw [delivered_append]
  exact k

end DeliveredFrom

theorem GoesOut.of_deliveredFrom {p : Phase} {fs : List Bytes} {s t : State} (h : DeliveredFrom p fs s t) {f : Bytes}
    (hf : GoesOut s f) : GoesOut t f := by
  rwa [GoesOut, h.host_eq, h.cfg_eq]

/-- A decoded frame of which nothing waits is delivered. -/
theorem DecodedFrom.delivered {f : Bytes} {s t : State} (h : DecodedFrom f s t) (ho : rxOutputsTaken s) (hf : GoesOut s f) :
    DeliveredFrom .s1 [f] s t := by
  obtain ⟨-, hst, -⟩ := ho
  obtain ⟨-, htaken⟩ := hf
  unfold DecodedFrom at h
  replace h := h.trans (pushStates_of_taken hst htaken)
  rw [DeliveredFrom, h, Machine.delivered]
  simp

/-- The loop over frames of which none waits: it stands at S1 again, behind the last of them. -/
theorem loopRuns_delivered {s : State} {r : Bytes} {fs later : List Bytes} (hph : s.ph = .s1) (ho : rxOutputsTaken s)
    (h : extract s.buf = (r, fs ++ later)) (hout : ∀ f ∈ fs, GoesOut s f) :
    ∃ (n : Nat) (skipped : Bytes) (t : State), LoopRuns n s t ∧ DeliveredFrom .s1 fs s t ∧
      n + 7 * t.buf.length ≤ 7 * s.buf.length ∧ s.buf = skipped ++ t.buf ∧ extract t.buf = (r, later) := by
  induction fs generalizing s with
  | nil => exact ⟨0, [], s, fun _ => rfl, hph ▸ .refl s, by omega, rfl, h⟩
  | cons f fs ih =>
    obtain ⟨hf, hfs⟩ := List.forall_mem_cons.mp hout
    obtain ⟨n, skipped, t, hrun, hdec, hn, hbuf, hrest⟩ := loopRuns_decoded_frame hph ho hf.1 h
    have hdel := hdec.delivered ho hf
    obtain ⟨m, more, u, hrun', hdel', hm, hbuf', hrest'⟩ :=
      ih hdel.ph_eq (hdel.outputsTaken_iff.mpr ho) hrest fun g hg => (hfs g hg).of_deliveredFrom hdel
    exact ⟨m + n, skipped ++ f ++ more, u, hrun.trans hrun', hdel.trans hdel', by omega,
      by rw [hbuf, hbuf']; simp only [List.append_assoc], hrest'⟩

/-! ## FRS.FEED.B (R141) -/

/-- The last passes add no frame to what was delivered before them. -/
theorem StoppedWith.after_delivered {r : Bytes} {p : Phase} {fs : List Bytes} {s t u : State} (h : StoppedWith r t u)
    (k : DeliveredFrom p fs s t) : DeliveredFrom .q fs s u ∧ u.buf = r := by
  unfold StoppedWith at h
  unfold DeliveredFrom at k ⊢
  rw [k] at h
  exact ⟨by rw [h], by rw [h]⟩

theorem rxAdvance_of_idle {s : State} (h : rxIdle s) : rxAdvance s = none := by
  obtain ⟨hph, ho⟩ := h
  rw [rxAdvance_of_rxOutputsTaken ho]
  simp only [microStep, hph]

/-- Before the loop runs FEED.B writes only the buffer and the phase. -/
theorem DeliveredFrom.of_feedStart {p : Phase} {fs : List Bytes} {b : Byte} {s t : State}
    (h : DeliveredFrom p fs (feedStart b s) t) : DeliveredFrom p fs s t := h

theorem loopBound_eq (buf : Bytes) : loopBound buf = 7 * buf.length + 7 := Nat.mul_succ ..

/-- FEED.B where nothing waits: `extract`, with its frames delivered (R149). -/
theorem execFrsFeedB_delivers {s : State} {b : Byte} {r : Bytes} {frames : List Bytes} (hidle : rxIdle s)
    (h : extract (guardBuf s.cfg.bufBound (s.buf ++ [b])) = (r, frames)) (hout : ∀ f ∈ frames, GoesOut s f) :
    ∃ t, execFrsFeedB b s = .next t ∧ DeliveredFrom .q frames s t ∧ t.buf = r := by
  obtain ⟨-, ho⟩ := hidle
  obtain ⟨n, -, t, hrun, hdel, hn, -, hrest⟩ :=
    loopRuns_delivered (s := feedStart b s) (later := []) rfl ho (h.trans (by rw [List.append_nil])) hout
  have hot : rxOutputsTaken t := hdel.outputsTaken_iff.mpr ho
  obtain ⟨m, u, hrun', hstop, hm⟩ := loopRuns_no_frame hdel.ph_eq hot hrest
  obtain ⟨hdelu, hbuf⟩ := hstop.after_delivered hdel
  have hfuel : m + n ≤ loopBound (feedStart b s).buf := by
    rw [loopBound_eq]
    omega
  have hwaits := rxAdvance_of_idle ⟨hdelu.ph_eq, hdelu.outputsTaken_iff.mpr ho⟩
  exact ⟨u, (hrun.trans hrun').rxLoop_eq hfuel hwaits, hdelu.of_feedStart, hbuf⟩

/-- Ready consumers make nothing wait. -/
theorem rxConsumersReady.goesOut {s : State} (h : rxConsumersReady s) (f : Bytes) : GoesOut s f := ⟨h.1, .inl h.2⟩

/-- Settles O10: nothing waits, so the loop delivers every frame. -/
theorem feedByteComputesExtract : Obligations.FeedByteComputesExtract := by
  intro s b r frames hidle hready h
  obtain ⟨t, hexec, hdel, hbuf⟩ := execFrsFeedB_delivers hidle h fun f _ => hready.goesOut f
  have hq : quiescent t.buf = true := hbuf ▸ ((extracts_iff ..).mpr h).quiescent_rest
  refine ⟨t, hexec, ?_, hq, length_le_of_quiescent hq⟩
  rw [DeliveredFrom, hbuf, ← hidle.1] at hdel
  exact hdel

/-! ## A state consumer that is not ready (R153, R29, R300) -/

/-- Frames without DeviceStates leave nothing on the state port. -/
theorem delivered_of_no_states {fs : List Bytes} {s : State} (h : ∀ f ∈ fs, statesOf s.cfg f = []) :
    delivered fs s = { s with emitted := s.emitted ++ fs, frmTaken := s.frmTaken ++ fs.flatMap frameBeats } := by
  have hnone : fs.flatMap (statesOf s.cfg) = [] := List.flatMap_eq_nil_iff.mpr h
  simp [delivered, hnone]

/-- The decoding of a frame with DeviceStates leaves its words offered, and the engine waits there. -/
theorem DecodedFrom.waits {f : Bytes} {s t : State} (h : DecodedFrom f s t) (ho : rxOutputsTaken s)
    (hbusy : s.host.levels.stReady = false) (hf : statesOf s.cfg f ≠ []) :
    rxAdvance t = none ∧ t = { s with
      buf := t.buf, ph := .s1, i := t.i, d := f.getD 4 0, L := f.length, dev := f.getD 1 0, sub := f.getD 2 0,
      cmd := f.getD 3 0, xacc := t.xacc, aacc := t.aacc, emitted := s.emitted ++ [f], frmTaken := s.frmTaken ++ frameBeats f,
      pushed := s.pushed ++ statesOf s.cfg f, stOut := (statesOf s.cfg f).map dsw } := by
  obtain ⟨hfrm, hst, hslot⟩ := ho
  unfold DecodedFrom at h
  replace h := h.trans (pushStates_of_not_ready _ hbusy)
  rw [hst, List.nil_append] at h
  refine ⟨rxAdvance_of_stOut_ne_nil ?_ ?_ ?_, h⟩
  · rw [h]
    exact hfrm
  · rw [h]
    exact hslot
  · rw [h]
    simpa using hf

/-- Settles O12: the frames before the first with DeviceStates go out, that one waits; without such a frame nothing waits. -/
theorem feedByteWaitsForTheStateConsumer : Obligations.FeedByteWaitsForTheStateConsumer := by
  constructor
  · rintro s b r f before later ⟨-, ho⟩ hready hbusy h hbefore hf
    obtain ⟨n, skipped, t, hrun, hdel, hn, hbuf, hrest⟩ :=
      loopRuns_delivered (s := feedStart b s) rfl ho h fun g hg => ⟨hready, .inr (hbefore g hg)⟩
    have hot : rxOutputsTaken t := hdel.outputsTaken_iff.mpr ho
    have hhost : t.host = s.host := hdel.host_eq
    have hcfg : t.cfg = s.cfg := hdel.cfg_eq
    obtain ⟨m, skipped', u, hrun', hdec, hm, hbuf', hrest'⟩ :=
      loopRuns_decoded_frame hdel.ph_eq hot (hhost ▸ hready) hrest
    obtain ⟨hwaits, hu⟩ := hdec.waits hot (hhost ▸ hbusy) (hcfg ▸ hf)
    have hfuel : m + n ≤ loopBound (feedStart b s).buf := by
      rw [loopBound_eq]
      omega
    refine ⟨u, skipped ++ skipped', (hrun.trans hrun').rxLoop_eq hfuel hwaits, ?_, ?_, hrest'⟩
    · have ht := hdel.of_feedStart
      rw [DeliveredFrom, delivered_of_no_states hbefore] at ht
      rw [ht] at hu
      simpa using hu
    · calc guardBuf s.cfg.bufBound (s.buf ++ [b]) = skipped ++ t.buf := hbuf
        _ = skipped ++ skipped' ++ f ++ u.buf := by
            rw [hbuf']
            simp only [List.append_assoc]
  · intro s b r frames hidle hready h hnone
    have hout : ∀ f ∈ frames, GoesOut s f := fun f hf =>
      ⟨hready.resolve_right (List.ne_nil_of_mem hf), .inr (hnone f hf)⟩
    obtain ⟨t, hexec, hdel, hbuf⟩ := execFrsFeedB_delivers hidle h hout
    rw [DeliveredFrom, delivered_of_no_states hnone, hbuf, ← hidle.1] at hdel
    exact ⟨t, hexec, hdel⟩

end Sys2Proof.Machine
end

section
/-! PROOFS. FEED of a chunk (spec/41_reassembler.md R152, R154, R161, R163, R164): byte by byte it is `extract` of the whole, behind
an operation that waits it is issued; a frame after noise, and a frame cut in two. -/

namespace Sys2Proof.Machine

/-! ## FEED where the receive side is free, and where it is not (R58, R99, R297) -/

theorem feedChunk_cons_of_free {s : State} (b : Byte) (bs : Bytes) (h : rxFree s = true) :
    feedChunk (b :: bs) s = andThen (execFrsFeedB b s) (feedChunk bs) := by
  rw [feedChunk, if_pos h]

theorem issue_nil (s : State) : issue [] s = s := by simp [issue]

theorem feedChunk_of_busy {s : State} (c : Bytes) (h : rxFree s = false) : feedChunk c s = .next (issue (c.map .byte) s) := by
  cases c with
  | nil => rw [List.map_nil, issue_nil, feedChunk]
  | cons b bs => rw [feedChunk, h, if_neg Bool.false_ne_true]

theorem andThen_feedChunk_nil (o : Outcome) : andThen o (feedChunk []) = o := by
  cases o <;> rfl

theorem feedChunk_singleton {s : State} (b : Byte) (h : rxFree s = true) : feedChunk [b] s = exec (.frsFeedB b) s := by
  rw [feedChunk_cons_of_free b [] h, andThen_feedChunk_nil, exec_frsFeedB]

theorem andThen_assoc (o : Outcome) (f g : State → Outcome) : andThen (andThen o f) g = andThen o fun s => andThen (f s) g := by
  cases o <;> rfl

/-- FEED of two chunks one after the other is FEED of the whole, whether or not it starts. -/
theorem feedChunk_append (c1 c2 : Bytes) (s : State) : feedChunk (c1 ++ c2) s = andThen (feedChunk c1 s) (feedChunk c2) := by
  induction c1 generalizing s with
  | nil => rfl
  | cons b bs ih =>
    cases hfree : rxFree s with
    | true =>
      rw [List.cons_append, feedChunk_cons_of_free _ _ hfree, feedChunk_cons_of_free _ _ hfree, andThen_assoc]
      exact congrArg _ (funext ih)
    | false =>
      rw [feedChunk_of_busy _ hfree, feedChunk_of_busy _ hfree, andThen_next, List.map_cons,
        feedChunk_of_busy _ (rxFree_issue ..), issue_issue, List.cons_append, List.map_cons, List.map_append, List.cons_append]

/-! ## FEED as `extract` of the whole chunk (R152, R161) -/

/-- A state in which a chunk is fed at once, each byte in full: the engine quiescent with nothing pending, nothing before it at the
ports, both consumers ready, and a configuration that meets its constraints. -/
structure Feeds (s : State) : Prop where
  cfgWf : s.cfg.wf = true
  idle : rxIdle s
  free : rxFree s = true
  atRest : quiescent s.buf = true
  ready : rxConsumersReady s

theorem DeliveredFrom.rxFree_eq {fs : List Bytes} {s t : State} (h : DeliveredFrom .q fs s t) (hph : s.ph = .q) :
    rxFree t = rxFree s := by
  simp only [rxFree, h.host_eq, h.ph_eq, hph]

/-- What FEED leaves feeds again. -/
theorem Feeds.after {fs : List Bytes} {s t : State} (h : Feeds s) (hdel : DeliveredFrom .q fs s t)
    (hq : quiescent t.buf = true) : Feeds t where
  cfgWf := hdel.cfg_eq ▸ h.cfgWf
  idle := ⟨hdel.ph_eq, hdel.outputsTaken_iff.mpr h.idle.2⟩
  free := (hdel.rxFree_eq h.idle.1).trans h.free
  atRest := hq
  ready := by
    unfold rxConsumersReady
    rw [hdel.host_eq]
    exact h.ready

/-- FEED where it starts: `extract` of the buffer with the chunk behind it, with its frames delivered. -/
theorem feedChunk_delivers {s : State} {c r : Bytes} {frames : List Bytes} (hs : Feeds s)
    (h : extract (s.buf ++ c) = (r, frames)) :
    ∃ t, feedChunk c s = .next t ∧ DeliveredFrom .q frames s t ∧ t.buf = r ∧ Feeds t := by
  induction c generalizing s r frames with
  | nil =>
    rw [List.append_nil, extract_of_quiescent hs.atRest] at h
    cases h
    exact ⟨s, rfl, hs.idle.1 ▸ .refl s, rfl, hs⟩
  | cons b bs ih =>
    have hfirst := extracts_extract (s.buf ++ [b])
    have hwhole := (hfirst.append (extracts_extract ((extract (s.buf ++ [b])).1 ++ bs))).extract_eq
    rw [List.append_assoc, List.singleton_append, h] at hwhole
    cases hwhole
    have hguard := guardBuf_append_byte b hs.cfgWf (length_le_of_quiescent hs.atRest)
    obtain ⟨t, hfeed, hdel, hbuf⟩ :=
      execFrsFeedB_delivers hs.idle (congrArg extract hguard) fun f _ => hs.ready.goesOut f
    have ht := hs.after hdel (hbuf ▸ hfirst.quiescent_rest)
    obtain ⟨u, hchunk, hdel', hbuf', hu⟩ := ih ht (congrArg (fun buf => extract (buf ++ bs)) hbuf)
    refine ⟨u, ?_, hdel.trans hdel', hbuf', hu⟩
    rw [feedChunk_cons_of_free b bs hs.free, hfeed, andThen_next, hchunk]

/-- Settles O24: FEED where it starts, where it does not, and in parts. -/
theorem feedChunkExtractsTheWholeChunk : Obligations.FeedChunkExtractsTheWholeChunk := by
  refine ⟨fun s c r frames hcfg hidle hfree hq hready h => ?_, fun s c => feedChunk_of_busy c, fun s b => feedChunk_singleton b,
    fun s c1 c2 => feedChunk_append c1 c2 s, fun s => rfl⟩
  obtain ⟨t, hfeed, hdel, hbuf, ht⟩ := feedChunk_delivers ⟨hcfg, hidle, hfree, hq, hready⟩ h
  exact ⟨t, hfeed, ht.idle, hbuf, hdel.emitted_eq, hdel.pushed_eq, hdel.host_eq, by rw [consumed, hbuf]⟩

/-! ## A frame behind noise, and a frame in two parts (R163, R164) -/

theorem extract_noise_frame {n w : Bytes} (hn : ∀ b ∈ n, b ≠ SYNC) (hw : wellFormedFrame w = true) :
    extract (n ++ w) = ([], [w]) := by
  have hframe := Extracts.frame hw (.done (s := []) rfl)
  rw [List.append_nil] at hframe
  exact (hframe.noise hn).extract_eq

/-- A frame that is not yet complete is waited for (R158). -/
theorem quiescent_of_frame_begun {a b : Bytes} (hb : b ≠ []) (hw : wellFormedFrame (a ++ b) = true) : quiescent a = true := by
  obtain ⟨⟨d, hsync, hd, hlen⟩, -⟩ := (wellFormedFrame_iff _).mp hw
  cases a with
  | nil => rfl
  | cons x xs =>
    refine (quiescent_iff _).mpr (.inr ⟨hsync, fun d' hd' => ?_⟩)
    have hsame : (x :: xs ++ b)[4]? = some d' := by
      rw [List.getElem?_append_left (List.getElem?_eq_some_iff.mp hd').1, hd']
    cases hsame.symm.trans hd
    rw [← hlen, List.length_append]
    exact Nat.lt_add_of_pos_right (List.length_pos_of_ne_nil hb)

/-- Settles O26: `extract` of noise and a frame from an empty buffer. -/
theorem frameIsFoundAfterNoise : Obligations.FrameIsFoundAfterNoise := by
  intro s n w hcfg hidle hfree hempty hready hn hw
  have h : extract (s.buf ++ (n ++ w)) = ([], [w]) := by
    rw [hempty, List.nil_append, extract_noise_frame hn hw]
  obtain ⟨t, hfeed, hdel, hbuf, -⟩ := feedChunk_delivers ⟨hcfg, hidle, hfree, hempty ▸ rfl, hready⟩ h
  refine ⟨t, hfeed, hbuf, hdel.emitted_eq, ?_⟩
  simp [consumed, hbuf, hempty]

/-- Settles O27: the first part is quiescent, and the second completes the frame. -/
theorem splitFrameIsEmittedAfterTheSecondPart : Obligations.SplitFrameIsEmittedAfterTheSecondPart := by
  intro s a b hcfg hidle hfree hempty hready _ hb hw
  have hfirst : extract (s.buf ++ a) = (a, []) := by
    rw [hempty, List.nil_append, extract_of_quiescent (quiescent_of_frame_begun hb hw)]
  obtain ⟨t, hfeed, hdel, hbuf, ht⟩ := feedChunk_delivers ⟨hcfg, hidle, hfree, hempty ▸ rfl, hready⟩ hfirst
  have hsecond : extract (t.buf ++ b) = ([], [a ++ b]) := by
    rw [hbuf]
    exact extract_noise_frame (n := []) (fun _ hmem => absurd hmem List.not_mem_nil) hw
  obtain ⟨u, hfeed', hdel', hbuf', -⟩ := feedChunk_delivers ht hsecond
  have hnone : t.emitted = s.emitted := hdel.emitted_eq.trans (List.append_nil _)
  exact ⟨t, u, hfeed, hbuf, hnone, hfeed', hbuf', hnone ▸ hdel'.emitted_eq⟩

end Sys2Proof.Machine
end

section
/-! PROOFS. Unit DEC (spec/42_decode.md): the decoder a well-formed frame selects (R180), the temperature codings (R183, R216), and
what each decoder pushes (R181 to R188), how much of it (R192). -/

namespace Sys2Proof.Machine

/-! ## The fields of a well-formed frame, and the key it selects (R81, R92, R180) -/

theorem eq_header_append {f : Bytes} (h : 5 ≤ f.length) :
    f = f.getD 0 0 :: f.getD 1 0 :: f.getD 2 0 :: f.getD 3 0 :: f.getD 4 0 :: f.drop 5 := by
  match f, h with
  | _ :: _ :: _ :: _ :: _ :: _, _ => rfl

/-- The data region of a frame (R81): from byte 5 on, as many bytes as the length byte declares. -/
def dataRegion (f : Bytes) : Bytes := (f.drop 5).take (f.getD 4 0).toNat

/-- A data region is no longer than a length byte can declare. -/
theorem length_dataRegion_le (f : Bytes) : (dataRegion f).length ≤ 255 := by
  have hlen := (f.getD 4 0).isLt
  simp only [dataRegion, List.length_take]
  omega

/-- A well-formed frame has the shape that the decoder reads. -/
theorem frameFields_of_wellFormed {f : Bytes} (h : wellFormedFrame f = true) :
    frameFields f = .ok (f.getD 1 0, f.getD 2 0, f.getD 3 0, dataRegion f) := by
  obtain ⟨⟨d, hcand⟩, -⟩ := (wellFormedFrame_iff f).mp h
  have h7 : ¬ f.length < 7 := Nat.not_lt.mpr hcand.seven_le_length
  have hsync : f.getD 0 0 = SYNC := by rw [List.getD_eq_getElem?_getD, hcand.sync]; rfl
  have hd : f.getD 4 0 = d := by rw [List.getD_eq_getElem?_getD, hcand.header]; rfl
  have hlen : f.length = totalLength (f.getD 4 0) := hd ▸ hcand.complete
  have hhead := eq_header_append (f := f) (by omega)
  calc frameFields f
      = frameFields (f.getD 0 0 :: f.getD 1 0 :: f.getD 2 0 :: f.getD 3 0 :: f.getD 4 0 :: f.drop 5) := congrArg _ hhead
    _ = .ok (f.getD 1 0, f.getD 2 0, f.getD 3 0, dataRegion f) := by
      simp only [frameFields]
      rw [← hhead, if_neg h7, if_neg (not_not.mpr hsync), if_neg (not_not.mpr hlen), dataRegion]

/-- A well-formed frame selects the row of its key. -/
theorem decode_wellFormedFrame (c : Cfg) {f : Bytes} (h : wellFormedFrame f = true) :
    decode c (.frame f) =
      .ok (decRowOf (decodeKey c (f.getD 1 0) (f.getD 3 0)) (f.getD 1 0) (f.getD 2 0) (f.getD 3 0) (dataRegion f)) := by
  simp only [decode, decodeFrame, frameFields_of_wellFormed h]

theorem mem_statusKeys_iff (c : Cfg) (dev cmd : Byte) :
    (dev, cmd) ∈ statusKeys c ↔ cmd = c.cmdStatus ∧ dev ∈ c.deviceIds := by
  simp [statusKeys, and_comm, eq_comm]

/-- No decoder is selected by another command id, nor by a device id of no class. -/
theorem decodeKey_eq_none {c : Cfg} {dev cmd : Byte} (h : cmd ≠ c.cmdStatus ∨ dev ∉ c.deviceIds) :
    decodeKey c dev cmd = none := by
  rw [decodeKey_eq_none_iff, mem_statusKeys_iff, not_and_or]
  exact h

/-- Settles O30: the key of a class selects its decoder, and no other key a decoder. -/
theorem decodersAreSelectedByDeviceAndCommand : Obligations.DecodersAreSelectedByDeviceAndCommand := by
  intro c f hc hf
  have hclass (k : DeviceClass) (hcmd : f.getD 3 0 = c.cmdStatus) (hdev : f.getD 1 0 = c.devId.get k) :
      decode c (.frame f) = .ok (decRowOf (some k) (f.getD 1 0) (f.getD 2 0) (f.getD 3 0) (dataRegion f)) := by
    have hkey : decodeKey c (f.getD 1 0) (f.getD 3 0) = some k := by rw [hcmd, hdev, decodeKey_status hc]
    rw [decode_wellFormedFrame c hf, hkey]
  refine ⟨hclass .light, hclass .thermostat, hclass .ventilation, hclass .gasValve, hclass .elevator, fun hother => ?_⟩
  rw [decode_wellFormedFrame c hf, decodeKey_eq_none hother]
  rfl

/-! ## The temperature codings (R87, R183, R216) -/

theorem toNat_parseTempH (b : Byte) : (parseTempH b).toNat = 2 * (b.toNat % 128) + b.toNat / 128 := by
  have hb := b.isLt
  have hlow : b.toNat <<< 1 % 2 ^ 8 = (b.toNat % 128) <<< 1 := by simp only [Nat.shiftLeft_eq]; omega
  have hhigh : b.toNat >>> 7 < 2 ^ 1 := by rw [Nat.shiftRight_eq_div_pow]; omega
  calc (parseTempH b).toNat
      = b.toNat <<< 1 % 2 ^ 8 ||| b.toNat >>> 7 := BitVec.toNat_rotateLeft
    _ = (b.toNat % 128) <<< 1 + b.toNat >>> 7 := by rw [hlow, Nat.shiftLeft_add_eq_or_of_lt hhigh]
    _ = 2 * (b.toNat % 128) + b.toNat / 128 := by
      rw [Nat.shiftLeft_eq, Nat.shiftRight_eq_div_pow, Nat.pow_one, Nat.mul_comm]

/-- What is encoded of an argument is its half degrees, the quotient by 128: their parity in bit 7, the whole degrees below. -/
theorem toNat_encodeTemp (arg : BitVec 16) :
    (encodeTemp arg).toNat = 128 * (arg.toNat / 128 % 2) + arg.toNat / 128 / 2 % 128 := by
  simp only [encodeTemp, toNat_append_eq, BitVec.extractLsb'_toNat, Nat.shiftRight_eq_div_pow, Nat.div_div_eq_div_mul]
  omega

/-- Encoding the decoded temperature, a half degree being 128 of the argument's units, gives the byte back. -/
theorem encodeTemp_parseTempH (b : Byte) : encodeTemp (BitVec.ofNat 16 ((parseTempH b).toNat * 128)) = b := by
  have hb := b.isLt
  have hhalf := toNat_parseTempH b
  have hfits : (parseTempH b).toNat * 128 % 2 ^ 16 / 128 = (parseTempH b).toNat := by omega
  apply BitVec.eq_of_toNat_eq
  have hparity : (parseTempH b).toNat % 2 = b.toNat / 128 := by omega
  have hwhole : (parseTempH b).toNat / 2 = b.toNat % 128 := by omega
  rw [toNat_encodeTemp, BitVec.toNat_ofNat, hfits, hparity, hwhole]
  omega

theorem parseTempH_injective : Function.Injective parseTempH := by
  intro b b' h
  rw [← encodeTemp_parseTempH b, h, encodeTemp_parseTempH]

/-- Settles O37. -/
theorem temperatureCodingsAreInverse : Obligations.TemperatureCodingsAreInverse := by
  refine ⟨toNat_parseTempH, Finite.injective_iff_bijective.mp parseTempH_injective,
    fun b => parseTempH_injective.eq_iff' (by decide), fun arg harg => ?_, encodeTemp_parseTempH, by decide⟩
  have hdegrees : arg.toNat / 256 = arg.toNat / 128 / 2 := by rw [Nat.div_div_eq_div_mul]
  have hfits : arg.toNat / 128 / 2 % 128 = arg.toNat / 128 / 2 := by omega
  rw [toNat_parseTempH, toNat_encodeTemp, hdegrees, hfits]
  omega

/-! ## The bytes of a data region (R189) -/

theorem dataByte_of_lt {data : Bytes} {k : Nat} (h : k < data.length) : dataByte data k = some (data.getD k 0) := by
  rw [dataByte, List.getD_eq_getElem?_getD, List.getElem?_eq_getElem h]
  rfl

theorem dataByte_of_le {data : Bytes} {k : Nat} (h : data.length ≤ k) : dataByte data k = none :=
  List.getElem?_eq_none h

/-! ## Light (R181) -/

theorem exec_decLight (sub : Byte) (data : Bytes) (s : State) :
    exec (.decLight sub data) s = .next (pushStates (lightStates data) s) := rfl

@[simp] theorem length_lightStates (data : Bytes) : (lightStates data).length = data.length - 1 := by
  simp [lightStates]

/-- The state of place `k` is that of zone `k + 1` and byte `k + 1`; byte 0 is not read. -/
theorem lightStates_getElem? (data : Bytes) (k : Nat) :
    (lightStates data)[k]? = data[k + 1]?.map fun b => flagState .light (k + 1) (decide (b = 0x01)) := by
  rw [lightStates, List.getElem?_mapIdx, List.getElem?_drop, Nat.add_comm 1 k]

/-- Settles O32. -/
theorem lightStatusGivesOneStatePerZone : Obligations.LightStatusGivesOneStatePerZone := by
  refine fun sub data s => ⟨lightStates data, exec_decLight sub data s, length_lightStates data, fun k b hk hb => ?_⟩
  rw [lightStates_getElem?, Nat.sub_add_cancel hk, hb]
  rfl

/-! ## Thermostat (R182) -/

theorem exec_decThermo (sub : Byte) (data : Bytes) (s : State) :
    exec (.decThermo sub data) s = .next (pushStates (thermoStates s.cfg.tempOrder data) s) := rfl

/-- The masks and both bytes of every zone that is looked at stand in the data region. -/
theorem thermoStates_eq_filterMap (order : TempOrder) (data : Bytes) :
    thermoStates order data = (List.range (thermoZones data.length)).filterMap fun k =>
      thermoZone order (k + 1) ((data.getD 1 0).getLsbD k) ((data.getD 2 0).getLsbD k)
        (data.getD (5 + 2 * k) 0) (data.getD (6 + 2 * k) 0) := by
  rw [thermoStates]
  split_ifs with hshort
  · have hnone : thermoZones data.length = 0 := by unfold thermoZones; omega
    rw [hnone]
    rfl
  · refine List.filterMap_congr fun k hk => ?_
    have hpair : 6 + 2 * k < data.length := by
      rw [List.mem_range, thermoZones] at hk
      omega
    rw [dataByte_of_lt (by omega), dataByte_of_lt (by omega), dataByte_of_lt (by omega), dataByte_of_lt hpair]

theorem length_thermoStates_le (order : TempOrder) (data : Bytes) : (thermoStates order data).length ≤ 8 := by
  rw [thermoStates_eq_filterMap]
  calc _ ≤ (List.range (thermoZones data.length)).length := List.length_filterMap_le ..
    _ ≤ 8 := by rw [List.length_range]; exact Nat.min_le_right ..

/-- Below five bytes there is no pair either, since the difference of R182 is then none. -/
theorem thermoZones_eq (d : Nat) : thermoZones d = if d < 5 then 0 else min ((d - 5) / 2) 8 := by
  unfold thermoZones
  split_ifs <;> omega

/-- Values computed along `1, .., n` where a test holds, as one pass over the indices below `n`. -/
theorem map_filter_range'_one {α : Type} (n : Nat) (test : Nat → Bool) (g : Nat → α) :
    ((List.range' 1 n).filter test).map g =
      (List.range n).filterMap fun k => if test (k + 1) then some (g (k + 1)) else none := by
  rw [← List.filterMap_eq_map, List.filterMap_filter, List.range'_eq_map_range, List.filterMap_map]
  simp only [Function.comp_def, Nat.add_comm 1]

/-- The statement's test of a populated zone, as the decoder tests it: its pair is not zero. -/
theorem populated_iff (p q : Byte) : (!(p == 0x00 && q == 0x00)) = true ↔ ¬(p = 0x00 ∧ q = 0x00) := by
  simp only [Bool.not_eq_true', ← Bool.not_eq_true, Bool.and_eq_true, beq_iff_eq]

/-- Settles O33: place `k` of the pass is zone `k + 1`, pushed exactly when its pair is not zero. -/
theorem thermostatStatusGivesThePopulatedZones : Obligations.ThermostatStatusGivesThePopulatedZones := by
  intro sub data s n p q hvac preset
  have hn : thermoZones data.length = n := thermoZones_eq data.length
  rw [exec_decThermo, thermoStates_eq_filterMap, hn, map_filter_range'_one]
  congr 2
  refine List.filterMap_congr fun k _ => ?_
  simp only [p, q, hvac, preset, Nat.add_sub_cancel, BitVec.testBit_toNat, thermoZone]
  by_cases hzero : data.getD (5 + 2 * k) 0 = 0x00 ∧ data.getD (6 + 2 * k) 0 = 0x00
  · rw [if_pos hzero, if_neg fun hpop => (populated_iff ..).mp hpop hzero]
  · exact (if_neg hzero).trans (if_pos ((populated_iff ..).mpr hzero)).symm

/-! ## Ventilation (R184, R185) -/

theorem exec_decVent (sub : Byte) (data : Bytes) (s : State) :
    exec (.decVent sub data) s = .next (pushStates (ventStates s.cfg data) s) := rfl

/-- The constraint of R12 on the ventilation codes, as far as decoding compares them. -/
theorem ventCodes_ne {c : Cfg} (hc : c.wf = true) :
    c.ventMed ≠ c.ventLow ∧ c.ventHigh ≠ c.ventLow ∧ c.ventHigh ≠ c.ventMed := by
  simp only [Cfg.wf, Bool.and_eq_true, decide_eq_true_eq] at hc
  obtain ⟨⟨-, hvent⟩, -⟩ := hc
  simp only [List.nodup_cons, List.mem_cons, not_or] at hvent
  obtain ⟨⟨hlm, hlh, -⟩, ⟨hmh, -⟩, -⟩ := hvent
  exact ⟨Ne.symm hlm, Ne.symm hlh, Ne.symm hmh⟩

/-- The sentinel is tested before the mode code. -/
theorem ventDecode_of_sentinel {c : Cfg} {e : Option Byte} (m : Byte) (h : c.ventTable = .level3Auto ∧ e = some 0x04) :
    ventDecode c m e = (50, .auto) := if_pos h

theorem ventDecode_of_no_sentinel {c : Cfg} {e : Option Byte} (hc : c.wf = true) (m : Byte)
    (h : ¬(c.ventTable = .level3Auto ∧ e = some 0x04)) :
    (m = c.ventLow → ventDecode c m e = (33, .low)) ∧
    (m = c.ventMed → ventDecode c m e = (66, .medium)) ∧
    (m = c.ventHigh → ventDecode c m e = (100, .high)) ∧
    (m ∉ [c.ventLow, c.ventMed, c.ventHigh] → ventDecode c m e = (0, .none)) := by
  obtain ⟨hml, hhl, hhm⟩ := ventCodes_ne hc
  rw [ventDecode, if_neg h]
  refine ⟨fun hm => ?_, fun hm => ?_, fun hm => ?_, fun hm => ?_⟩
  · rw [if_pos hm]
  · rw [hm, if_neg hml, if_pos rfl]
  · rw [hm, if_neg hhl, if_neg hhm, if_pos rfl]
  · simp only [List.mem_cons, not_or] at hm
    obtain ⟨hl, hmed, hh, -⟩ := hm
    rw [if_neg hl, if_neg hmed, if_neg hh]

theorem ventStates_of_short (c : Cfg) {data : Bytes} (h : data.length < 3) : ventStates c data = [] := by
  rw [ventStates, dataByte_of_le (k := 2) (by omega)]
  cases dataByte data 1 <;> rfl

theorem ventStates_of_long (c : Cfg) {data : Bytes} (h : 3 ≤ data.length) :
    ventStates c data =
      [{ key := { cls := .ventilation, zone := 1 },
         value := .vent (decide (data.getD 1 0 ≠ 0x00)) (ventDecode c (data.getD 2 0) data[3]?).1
           (ventDecode c (data.getD 2 0) data[3]?).2 }] := by
  rw [ventStates, dataByte_of_lt (k := 1) (by omega), dataByte_of_lt (k := 2) (by omega)]
  rfl

theorem length_ventStates_le (c : Cfg) (data : Bytes) : (ventStates c data).length ≤ 1 := by
  rcases Nat.lt_or_ge data.length 3 with h | h
  · rw [ventStates_of_short c h]
    exact Nat.zero_le _
  · rw [ventStates_of_long c h]
    exact Nat.le_refl _

/-- Settles O34. -/
theorem ventilationStatusFollowsTheModeTable : Obligations.VentilationStatusFollowsTheModeTable := by
  intro sub data s hc
  rw [exec_decVent]
  refine ⟨fun hshort => by rw [ventStates_of_short _ hshort],
    fun hlong => ⟨_, _, by rw [ventStates_of_long _ hlong], fun hsent => ?_, fun hno => ?_⟩⟩
  · rw [ventDecode_of_sentinel _ hsent]
    exact ⟨rfl, rfl⟩
  · simpa only [Prod.ext_iff] using ventDecode_of_no_sentinel hc (data.getD 2 0) hno

/-! ## Gas valve, elevator and unknown frames (R186, R187, R188) -/

theorem exec_decGas (sub : Byte) (data : Bytes) (s : State) :
    exec (.decGas sub data) s = .next (pushStates (gasStates data) s) := rfl

theorem exec_decElev (sub : Byte) (data : Bytes) (s : State) :
    exec (.decElev sub data) s = .next (pushStates (elevStates data) s) := rfl

theorem exec_decIgnore (dev sub cmd : Byte) (data : Bytes) (s : State) :
    exec (.decIgnore dev sub cmd data) s = .next (pushStates [] s) := rfl

theorem gasStates_eq (data : Bytes) :
    gasStates data = (data[1]?.map fun b => flagState .gasValve 1 (decide (b = 0x04))).toList := by
  rw [gasStates, dataByte]
  cases data[1]? <;> rfl

theorem elevStates_eq (data : Bytes) :
    elevStates data = (data[1]?.map fun b => flagState .elevator 1 (decide (b = 0x44))).toList := by
  rw [elevStates, dataByte]
  cases data[1]? <;> rfl

theorem pushStates_nil_of_taken {s : State} (h : s.stOut = []) : pushStates [] s = s := by
  rw [pushStates_of_taken h (.inr rfl), List.append_nil, List.map_nil, List.append_nil]

/-- Settles O35. -/
theorem gasElevatorAndUnknownFrames : Obligations.GasElevatorAndUnknownFrames := by
  refine ⟨fun sub data s hshort => ?_, fun sub data s b hb => ?_, exec_decIgnore, fun s => pushStates_nil_of_taken⟩
  · have hnone : data[1]? = none := List.getElem?_eq_none (Nat.le_of_lt_succ hshort)
    rw [exec_decGas, exec_decElev, gasStates_eq, elevStates_eq, hnone]
    exact ⟨rfl, rfl⟩
  · rw [exec_decGas, exec_decElev, gasStates_eq, elevStates_eq, hb]
    exact ⟨rfl, rfl⟩

/-! ## Every frame (R180, R192) -/

/-- The bound of R192 for the decoder of a key. -/
def decodedBound : Option DeviceClass → Nat
  | some .light => 254
  | some .thermostat => 8
  | some _ => 1
  | none => 0

/-- The DeviceStates of a well-formed frame are within the bound of its key, whose largest is that of one byte of length. -/
theorem length_statesOf_le (c : Cfg) {f : Bytes} (h : wellFormedFrame f = true) :
    (statesOf c f).length ≤ decodedBound (decodeKey c (f.getD 1 0) (f.getD 3 0)) := by
  simp only [statesOf, frameFields_of_wellFormed h]
  cases decodeKey c (f.getD 1 0) (f.getD 3 0) with
  | none => exact Nat.le_refl 0
  | some k =>
    cases k with
    | light =>
      have hdata := length_dataRegion_le f
      simp only [length_lightStates, decodedBound]
      omega
    | thermostat => exact length_thermoStates_le ..
    | ventilation => exact length_ventStates_le ..
    | gasValve => exact gasStates_eq _ ▸ Option.length_toList_le
    | elevator => exact elevStates_eq _ ▸ Option.length_toList_le

/-- Settles O36: the row and the decoding inside FRS.FEED.B are the same, which pushes `statesOf`. -/
theorem decodersAreTotalAndBounded : Obligations.DecodersAreTotalAndBounded := by
  rintro c f s hf rfl
  have hemit := decodeEmitted_eq f s
  refine ⟨⟨_, decode_wellFormedFrame s.cfg hf⟩, fun i hi => ?_, hemit, ?_⟩
  · have hexec : exec i s = decodeEmitted f s := exec_of_decodeFrame hi
    exact ⟨hexec.trans hemit, hexec.symm⟩
  · have hbound := length_statesOf_le s.cfg hf
    revert hbound
    cases decodeKey s.cfg (f.getD 1 0) (f.getD 3 0) with
    | none => exact fun hbound => List.length_eq_zero_iff.mp (Nat.le_zero.mp hbound)
    | some k => cases k <;> exact id

end Sys2Proof.Machine
end

section
/-! PROOFS. Unit ENC (spec/43_encode.md): the tests of R210 in their order, the table of rows, the row a command request word selects,
and what each of the eight rows returns. -/

namespace Sys2Proof.Machine

/-! ## The sub-address (R86, R211) -/

theorem subAddress_of_le {c : Cfg} {k : DeviceClass} {zone : Byte} (h : (c.subBase.get k).toNat + zone.toNat ≤ 255) :
    subAddress c k zone = some (c.subBase.get k + zone) := by
  simp only [subAddress, if_neg (Nat.not_lt.mpr h), BitVec.ofNat_add, BitVec.ofNat_toNat, BitVec.setWidth_eq]

theorem subAddress_of_gt {c : Cfg} {k : DeviceClass} {zone : Byte} (h : 255 < (c.subBase.get k).toNat + zone.toNat) :
    subAddress c k zone = none := if_pos h

/-! ## ENC from the row on (R210, R212) -/

/-- The four inputs of BLD.BUILD for a row's command id and payload (R210). -/
def buildArgs (c : Cfg) (k : DeviceClass) (zone : Byte) (p : Byte × Bytes) : BuildArgs :=
  { dev := c.devId.get k, sub := c.subBase.get k + zone, cmd := p.1, payload := p.2 }

theorem encTail_zone_zero (c : Cfg) (k : DeviceClass) (row : Row) : encTail c k 0 row = .error .badZone := if_pos rfl

section
variable {c : Cfg} {k : DeviceClass} {zone : Byte} (hzone : zone ≠ 0)
include hzone

theorem encTail_of_overflow (row : Row) (h : 255 < (c.subBase.get k).toNat + zone.toNat) :
    encTail c k zone row = .error .subOverflow := by
  simp only [encTail, if_neg hzone, subAddress_of_gt h]

/-- Behind the tests of zone and sub-address the row decides. -/
theorem encTail_of_fits (row : Row) (h : (c.subBase.get k).toNat + zone.toNat ≤ 255) :
    encTail c k zone row = row.map (buildArgs c k zone) := by
  simp only [encTail, if_neg hzone, subAddress_of_le h]
  cases row <;> rfl

end

/-- The commands that pass the three tests. -/
theorem encTail_eq_ok {c : Cfg} {k : DeviceClass} {zone : Byte} {row : Row} {a : BuildArgs} (h : encTail c k zone row = .ok a) :
    zone ≠ 0 ∧ (c.subBase.get k).toNat + zone.toNat ≤ 255 ∧ ∃ p, row = .ok p ∧ a = buildArgs c k zone p := by
  have hzone : zone ≠ 0 := by
    rintro rfl
    rw [encTail_zone_zero] at h
    cases h
  have hfits : (c.subBase.get k).toNat + zone.toNat ≤ 255 := by
    refine Nat.not_lt.mp fun hover => ?_
    rw [encTail_of_overflow hzone row hover] at h
    cases h
  rw [encTail_of_fits hzone row hfits] at h
  cases row with
  | error r => cases h
  | ok p => cases h; exact ⟨hzone, hfits, p, rfl, rfl⟩

/-! ## The table of R210 -/

theorem classOfTag_eq_none_iff (t : BitVec 3) : classOfTag t = none ↔ 5 ≤ t.toNat := by
  revert t; decide

/-- The two tables, of rows as operations and of rows as functions, have entries for the same pairs. -/
theorem encRowOf_eq_none_iff (c : Cfg) (k : DeviceClass) (act : Action) (rsv : BitVec 2) (zone : Byte) (arg : BitVec 16) :
    encRowOf k act rsv zone arg = none ↔ rowOf c k act arg = none := by
  cases k with
  | gasValve => simp [encRowOf, rowOf]
  | light | thermostat | ventilation | elevator => cases act <;> simp [encRowOf, rowOf]

/-- ENC.VENT.SPEED refuses an argument above 100, whether the percentage in its low byte is (R219) or its high byte is not zero. -/
theorem ventSpeedRow_eq (c : Cfg) (arg : BitVec 16) : ventSpeedRow c arg =
    if 100 < arg.toNat then .error .badArg else .ok (c.cmdVentSpeed, [0x01, ventEncode c arg.toNat]) := by
  have hlow : (arg.extractLsb' 0 8).toNat = arg.toNat % 256 := BitVec.extractLsb'_toNat ..
  have hhigh : (arg.extractLsb' 8 8).toNat = arg.toNat / 256 % 256 := by
    rw [BitVec.extractLsb'_toNat, Nat.shiftRight_eq_div_pow]
  have hrefused : (arg.extractLsb' 8 8 ≠ 0 ∨ 100 < (arg.extractLsb' 0 8).toNat) ↔ 100 < arg.toNat := by
    have harg := arg.isLt
    have hzero : (0 : Byte).toNat = 0 := rfl
    rw [ne_eq, ← BitVec.toNat_inj, hlow, hhigh, hzero]
    omega
  simp only [ventSpeedRow, hrefused]
  split_ifs with h
  · rfl
  · rw [hlow, Nat.mod_eq_of_lt (by omega)]

theorem thTempRow_eq (c : Cfg) (arg : BitVec 16) : thTempRow c arg =
    if 2 ^ 15 ≤ arg.toNat then .error .badArg else .ok (c.cmdThTemp, [0x01, encodeTemp arg]) := by
  have hbit : arg.getLsbD 15 = decide (2 ^ 15 ≤ arg.toNat) := BitVec.msb_eq_decide arg
  simp only [thTempRow, hbit, decide_eq_true_eq]

/-- What a row can answer (R90, R212): a command id other than that of status frames and a payload of two bytes, the first 0x01; or
BAD_ARG. -/
theorem row_cases {c : Cfg} {k : DeviceClass} {act : Action} {arg : BitVec 16} {row : Row} (h : rowOf c k act arg = some row) :
    (∃ cmd ∈ c.commandIds, ∃ v : Byte, row = .ok (cmd, [0x01, v])) ∨ row = .error .badArg := by
  unfold rowOf at h
  split at h <;> cases h
  case h_4 => -- ENC.TH.TEMP
    rw [thTempRow_eq]
    split_ifs
    · exact .inr rfl
    · exact .inl ⟨_, by simp [Cfg.commandIds], _, rfl⟩
  case h_8 => -- ENC.VENT.SPEED
    rw [ventSpeedRow_eq]
    split_ifs
    · exact .inr rfl
    · exact .inl ⟨_, by simp [Cfg.commandIds], _, rfl⟩
  all_goals exact .inl ⟨_, by simp [Cfg.commandIds], _, rfl⟩

/-! ## What ENC answers, and the row a word selects (R94, R210) -/

section
variable {cls : BitVec 3} {act : Action} {arg : BitVec 16}

theorem encodeCommand_of_no_class (hcls : classOfTag cls = none) (c : Cfg) (act : Action) (zone : Byte) (arg : BitVec 16) :
    encodeCommand c cls act zone arg = .error .badClass := by
  simp only [encodeCommand, hcls]

variable {c : Cfg} {k : DeviceClass} (hcls : classOfTag cls = some k)
include hcls

theorem encodeCommand_of_no_row (hrow : rowOf c k act arg = none) (zone : Byte) :
    encodeCommand c cls act zone arg = .error .badAction := by
  simp only [encodeCommand, hcls, hrow]

theorem encodeCommand_of_row {row : Row} (hrow : rowOf c k act arg = some row) (zone : Byte) :
    encodeCommand c cls act zone arg = encTail c k zone row := by
  simp only [encodeCommand, hcls, hrow]

end

/-- The commands that ENC accepts. -/
theorem encodeCommand_eq_ok {c : Cfg} {cls : BitVec 3} {act : Action} {zone : Byte} {arg : BitVec 16} {a : BuildArgs}
    (h : encodeCommand c cls act zone arg = .ok a) : ∃ k, classOfTag cls = some k ∧ ∃ row, rowOf c k act arg = some row ∧
      encTail c k zone row = .ok a := by
  cases hcls : classOfTag cls with
  | none => rw [encodeCommand_of_no_class hcls] at h; cases h
  | some k =>
    cases hrow : rowOf c k act arg with
    | none => rw [encodeCommand_of_no_row hcls hrow] at h; cases h
    | some row => exact ⟨k, rfl, row, hrow, encodeCommand_of_row hcls hrow zone ▸ h⟩

/-- ENC on the fields of a command request word. -/
def encodeWord (c : Cfg) (w : Word32) : Except Reason BuildArgs :=
  encodeCommand c (crwCls w) (actionOfTag (crwAct w)) (crwZone w) (crwArg w)

/-- The operation of a row answers what ENC does from the row on. -/
theorem exec_of_encRowOf_rowOf {k : DeviceClass} {act : Action} {rsv : BitVec 2} {zone : Byte} {arg : BitVec 16} {i : Instr}
    (s : State) {row : Row} (hi : encRowOf k act rsv zone arg = some i) (hrow : rowOf s.cfg k act arg = some row) :
    exec i s = .next (setRet (retOfArgs (encTail s.cfg k zone row)) s) := by
  unfold encRowOf at hi
  split at hi <;> cases hi <;> cases hrow <;> rfl

/-- A word without a class, a word whose pair has no row, and a word with a row, for selection and for ENC alike. -/
theorem decodeEnc_cases (c : Cfg) (w : Word32) :
    (classOfTag (crwCls w) = none ∧ decodeEnc w = .error .noClass ∧ encodeWord c w = .error .badClass) ∨
    (∃ k, classOfTag (crwCls w) = some k ∧ decodeEnc w = .error .noAction ∧ encodeWord c w = .error .badAction) ∨
    ∃ k i row, classOfTag (crwCls w) = some k ∧ decodeEnc w = .ok i ∧
      encRowOf k (actionOfTag (crwAct w)) (crwRsv w) (crwZone w) (crwArg w) = some i ∧
      rowOf c k (actionOfTag (crwAct w)) (crwArg w) = some row ∧ encodeWord c w = encTail c k (crwZone w) row := by
  cases hcls : classOfTag (crwCls w) with
  | none => exact .inl ⟨rfl, by simp only [decodeEnc, hcls], encodeCommand_of_no_class hcls ..⟩
  | some k =>
    have hsame := encRowOf_eq_none_iff c k (actionOfTag (crwAct w)) (crwRsv w) (crwZone w) (crwArg w)
    cases hi : encRowOf k (actionOfTag (crwAct w)) (crwRsv w) (crwZone w) (crwArg w) with
    | none =>
      exact .inr (.inl ⟨k, rfl, by simp only [decodeEnc, hcls, hi], encodeCommand_of_no_row hcls (hsame.mp hi) _⟩)
    | some i =>
      cases hrow : rowOf c k (actionOfTag (crwAct w)) (crwArg w) with
      | none => cases hi.symm.trans (hsame.mpr hrow)
      | some row =>
        exact .inr (.inr ⟨k, i, row, rfl, by simp only [decodeEnc, hcls, hi], hi, hrow, encodeCommand_of_row hcls hrow _⟩)

/-- The operation that a word selects, as ENC from its row on. -/
theorem exec_of_decodeEnc_encTail {s : State} {w : Word32} {i : Instr} (h : decodeEnc w = .ok i) :
    ∃ k row, classOfTag (crwCls w) = some k ∧ encodeWord s.cfg w = encTail s.cfg k (crwZone w) row ∧
      exec i s = .next (setRet (retOfArgs (encTail s.cfg k (crwZone w) row)) s) := by
  rcases decodeEnc_cases s.cfg w with ⟨-, hdec, -⟩ | ⟨k, -, hdec, -⟩ | ⟨k, j, row, hcls, hdec, hi, hrow, henc⟩
  · cases hdec.symm.trans h
  · cases hdec.symm.trans h
  · cases hdec.symm.trans h
    exact ⟨k, row, hcls, henc, exec_of_encRowOf_rowOf s hi hrow⟩

/-- Settles O44: no test before these two fails for a word that selects a row, and the row stands behind them. -/
theorem encRowsRefuseZoneAndOverflowFirst : Obligations.EncRowsRefuseZoneAndOverflowFirst := by
  intro s i w cls hdec hcls
  obtain ⟨k, row, hcls', -, hexec⟩ := exec_of_decodeEnc_encTail (s := s) hdec
  cases hcls.symm.trans hcls'
  rw [hexec]
  refine ⟨fun hzone => ?_, fun hzone hover => ?_⟩
  · rw [hzone, encTail_zone_zero]
    rfl
  · rw [encTail_of_overflow hzone row hover]
    rfl

/-! ## The eight rows (R213 to R222) -/

section
variable (act : Action) (on : Bool) (rsv : BitVec 2) (zone : Byte) (arg : BitVec 16) (s : State)

theorem exec_encLightSet : exec (.encLightSet on rsv zone arg) s =
    .next (setRet (retOfArgs (encTail s.cfg .light zone (lightSetRow s.cfg on))) s) := rfl

theorem exec_encThMode : exec (.encThMode rsv zone arg) s =
    .next (setRet (retOfArgs (encTail s.cfg .thermostat zone (thModeRow s.cfg arg))) s) := rfl

theorem exec_encThTemp : exec (.encThTemp rsv zone arg) s =
    .next (setRet (retOfArgs (encTail s.cfg .thermostat zone (thTempRow s.cfg arg))) s) := rfl

theorem exec_encThAway : exec (.encThAway rsv zone arg) s =
    .next (setRet (retOfArgs (encTail s.cfg .thermostat zone (thAwayRow s.cfg arg))) s) := rfl

theorem exec_encVentPower : exec (.encVentPower on rsv zone arg) s =
    .next (setRet (retOfArgs (encTail s.cfg .ventilation zone (ventPowerRow s.cfg on))) s) := rfl

theorem exec_encVentSpeed : exec (.encVentSpeed rsv zone arg) s =
    .next (setRet (retOfArgs (encTail s.cfg .ventilation zone (ventSpeedRow s.cfg arg))) s) := rfl

theorem exec_encGasClose : exec (.encGasClose act rsv zone arg) s =
    .next (setRet (retOfArgs (encTail s.cfg .gasValve zone (gasCloseRow s.cfg))) s) := rfl

theorem exec_encElevCall : exec (.encElevCall rsv zone arg) s =
    .next (setRet (retOfArgs (encTail s.cfg .elevator zone (elevCallRow s.cfg))) s) := rfl

end

/-- Settles O40. -/
theorem onOffRowsReturnTheirPayload : Obligations.OnOffRowsReturnTheirPayload := by
  intro s on rsv zone arg hzone
  refine ⟨fun hfits => ?_, fun hfits => ?_⟩
  · rw [exec_encLightSet, encTail_of_fits (k := .light) hzone _ hfits]
    rfl
  · rw [exec_encVentPower, encTail_of_fits (k := .ventilation) hzone _ hfits]
    rfl

/-- Settles O43. -/
theorem gasAndElevatorRowsReturnTheirPayload : Obligations.GasAndElevatorRowsReturnTheirPayload := by
  intro s act rsv zone arg hzone
  refine ⟨fun hfits => ?_, fun hfits => ?_⟩
  · rw [exec_encGasClose, encTail_of_fits (k := .gasValve) hzone _ hfits]
    rfl
  · rw [exec_encElevCall, encTail_of_fits (k := .elevator) hzone _ hfits]
    rfl

theorem onByte_getLsbD_zero (arg : BitVec 16) : onByte (arg.getLsbD 0) = if arg.toNat % 2 = 1 then 0x01 else 0x00 := by
  have hbit : arg.getLsbD 0 = decide (arg.toNat % 2 = 1) := Nat.testBit_zero arg.toNat
  rw [onByte, hbit]
  simp only [decide_eq_true_eq]

/-- Below 128 degrees the whole degrees fit seven bits (R216). -/
theorem encodeTemp_eq_ofNat {arg : BitVec 16} (h : arg.toNat < 2 ^ 15) :
    encodeTemp arg = BitVec.ofNat 8 (128 * (arg.toNat / 128 % 2) + arg.toNat / 256) := by
  have hdegrees : arg.toNat / 128 / 2 = arg.toNat / 256 := Nat.div_div_eq_div_mul ..
  have hwhole : arg.toNat / 256 < 128 := by omega
  have hfits : 128 * (arg.toNat / 128 % 2) + arg.toNat / 256 < 2 ^ 8 := by omega
  apply BitVec.eq_of_toNat_eq
  rw [toNat_encodeTemp, BitVec.toNat_ofNat, hdegrees, Nat.mod_eq_of_lt hwhole, Nat.mod_eq_of_lt hfits]

/-- Settles O41. -/
theorem thermostatRowsReturnTheirPayload : Obligations.ThermostatRowsReturnTheirPayload := by
  intro s rsv zone arg hzone hfits
  rw [exec_encThMode, exec_encThAway, exec_encThTemp, thModeRow, thAwayRow, onByte_getLsbD_zero]
  simp only [encTail_of_fits (k := .thermostat) hzone _ hfits]
  refine ⟨rfl, rfl, fun hlow => ?_, fun hhigh => ?_⟩
  · rw [thTempRow_eq, if_neg (Nat.not_le.mpr hlow), encodeTemp_eq_ofNat hlow]
    rfl
  · rw [thTempRow_eq, if_pos hhigh]
    rfl

/-- R220, with the clauses of a level made exclusive. -/
theorem ventEncode_thresholds (c : Cfg) (pct : Nat) :
    (pct = 50 ∧ c.ventTable = .level3Auto → ventEncode c pct = c.ventAuto) ∧
    (¬(pct = 50 ∧ c.ventTable = .level3Auto) →
      (pct ≤ 33 → ventEncode c pct = c.ventLow) ∧
      (34 ≤ pct ∧ pct ≤ 66 → ventEncode c pct = c.ventMed) ∧
      (67 ≤ pct → ventEncode c pct = c.ventHigh)) := by
  unfold ventEncode
  rw [and_comm (a := pct = 50)]
  refine ⟨fun hauto => if_pos hauto, fun hno => ?_⟩
  rw [if_neg hno]
  refine ⟨fun hlow => if_pos hlow, fun ⟨hlow, hmed⟩ => ?_, fun hhigh => ?_⟩
  · rw [if_neg (by omega), if_pos hmed]
  · rw [if_neg (by omega), if_neg (by omega)]

/-- A level that the decode table reports encodes back to its mode code (R220). -/
theorem ventEncode_ventDecode {c : Cfg} (hc : c.wf = true) {m : Byte} (hm : m ∈ [c.ventLow, c.ventMed, c.ventHigh]) :
    ventEncode c (ventDecode c m none).1 = m := by
  obtain ⟨hlow, hmed, hhigh, -⟩ := ventDecode_of_no_sentinel (e := none) hc m (by simp)
  simp only [List.mem_cons, List.not_mem_nil, or_false] at hm
  rcases hm with hm | hm | hm
  · rw [hlow hm, hm]
    exact ((ventEncode_thresholds c 33).2 (by simp)).1 (by decide)
  · rw [hmed hm, hm]
    exact ((ventEncode_thresholds c 66).2 (by simp)).2.1 (by decide)
  · rw [hhigh hm, hm]
    exact ((ventEncode_thresholds c 100).2 (by simp)).2.2 (by decide)

/-- Settles O42. -/
theorem ventilationSpeedFollowsTheThresholds : Obligations.VentilationSpeedFollowsTheThresholds := by
  refine ⟨fun s rsv zone arg hzone hfits => ?_, fun c m hc hm => ⟨ventEncode_ventDecode hc hm, fun hauto => ?_⟩⟩
  · rw [exec_encVentSpeed, encTail_of_fits (k := .ventilation) hzone _ hfits]
    refine ⟨fun hhigh => ?_, fun hle => ⟨ventEncode s.cfg arg.toNat, ?_, ventEncode_thresholds s.cfg arg.toNat⟩⟩
    · rw [ventSpeedRow_eq, if_pos hhigh]
      rfl
    · rw [ventSpeedRow_eq, if_neg (Nat.not_lt.mpr hle)]
      rfl
  · rw [ventDecode_of_sentinel m ⟨hauto, rfl⟩]
    exact (ventEncode_thresholds c 50).1 ⟨rfl, hauto⟩

end Sys2Proof.Machine
end

section
/-! PROOFS. TX.CMD (spec/43_encode.md R210 to R212, R221, R223, R224): the rows its words select, its refusals in their order, the nine
bytes it delivers, and those bytes fed back. -/

namespace Sys2Proof.Machine

/-! ## Built frames (R241, R243) -/

theorem wellFormedFrame_frameOf (dev sub cmd : Byte) {payload : Bytes} (h : payload.length ≤ 255) :
    wellFormedFrame (frameOf dev sub cmd payload) = true := by
  refine (wellFormedFrame_iff _).mpr ⟨⟨BitVec.ofNat 8 payload.length, rfl, rfl, ?_⟩, valid_gen _⟩
  simp only [frameOf, gen, totalLength, List.length_append, List.length_cons, List.length_nil, BitVec.toNat_ofNat]
  omega

/-- A frame whose command id is not that of status frames has no decoder (R92). -/
theorem statesOf_frameOf {c : Cfg} {cmd : Byte} (hcmd : cmd ≠ c.cmdStatus) (dev sub : Byte) {payload : Bytes}
    (h : payload.length ≤ 255) : statesOf c (frameOf dev sub cmd payload) = [] := by
  simp only [statesOf, frameFields_frameOf dev sub cmd payload h, decodeKey_eq_none (.inl hcmd)]

theorem ne_cmdStatus_of_mem_commandIds {c : Cfg} (hc : c.wf = true) {cmd : Byte} (h : cmd ∈ c.commandIds) : cmd ≠ c.cmdStatus := by
  simp only [Cfg.wf, Bool.and_eq_true, decide_eq_true_eq] at hc
  obtain ⟨⟨⟨⟨⟨-, hstatus⟩, -⟩, -⟩, -⟩, -⟩ := hc
  exact fun heq => hstatus (heq ▸ h)

/-- The payload of every command fits a length byte (R90). -/
theorem length_commandPayload_le (v : Byte) : ([0x01, v] : Bytes).length ≤ 255 := Nat.le_add_left 2 253

/-! ## The commands that ENC accepts (R90, R210, R211) -/

/-- Device id and sub-address are those of the class and zone, the command id is that of a command, and the payload is two bytes. -/
theorem accepted_args {c : Cfg} {cls : BitVec 3} {act : Action} {zone : Byte} {arg : BitVec 16} {a : BuildArgs}
    (h : encodeCommand c cls act zone arg = .ok a) : ∃ k v, classOfTag cls = some k ∧ a.dev = c.devId.get k ∧
      a.sub.toNat = (c.subBase.get k).toNat + zone.toNat ∧ a.cmd ∈ c.commandIds ∧ a.payload = [0x01, v] := by
  obtain ⟨k, hcls, row, hrow, htail⟩ := encodeCommand_eq_ok h
  obtain ⟨-, hfits, p, rfl, rfl⟩ := encTail_eq_ok htail
  rcases row_cases hrow with ⟨cmd, hcmd, v, hp⟩ | hrefused
  · cases hp
    exact ⟨k, v, hcls, rfl, (BitVec.toNat_add ..).trans (Nat.mod_eq_of_lt (Nat.lt_succ_of_le hfits)), hcmd, rfl⟩
  · cases hrefused

/-! ## TX.CMD on what ENC answers (R212, R223) -/

/-- The frame `f` offered on the tx port and returned, taken at once where the host is ready (log 10). -/
def transmitted (f : Bytes) (s : State) : State :=
  { s with
    cmdRefused := none, ret := .bytes f,
    txTaken := if s.host.levels.txReady then s.txTaken ++ (s.txOut ++ txBeats f) else s.txTaken,
    txOut := if s.host.levels.txReady then [] else s.txOut ++ txBeats f }

theorem transmitted_beats (f : Bytes) (s : State) :
    (transmitted f s).txTaken ++ (transmitted f s).txOut = s.txTaken ++ s.txOut ++ txBeats f := by
  simp only [transmitted]
  cases s.host.levels.txReady <;> simp

section
variable {s : State} {cls : BitVec 3} {act : Action} {zone : Byte} {arg : BitVec 16}

theorem exec_txCmd_of_refused {r : Reason} (h : encodeCommand s.cfg cls act zone arg = .error r) (rsv : BitVec 2) :
    exec (.txCmd cls act rsv zone arg) s = .next { s with cmdRefused := some r, ret := .refused r } := by
  rw [exec_txCmd, execTxCmd_eq_withTx, transmitOf, h]
  rfl

theorem exec_txCmd_of_accepted {a : BuildArgs} {v : Byte} (h : encodeCommand s.cfg cls act zone arg = .ok a)
    (hpayload : a.payload = [0x01, v]) (rsv : BitVec 2) :
    exec (.txCmd cls act rsv zone arg) s = .next (transmitted (frameOf a.dev a.sub a.cmd [0x01, v]) s) := by
  rw [exec_txCmd, execTxCmd_eq_withTx, transmitOf, h]
  simp only [buildFrame, hpayload, if_neg (Nat.not_lt.mpr (length_commandPayload_le v))]
  rfl

end

/-- Settles O47: the table pair by pair; the row of a word, and a word without one, as ENC on its fields; the delivery. -/
theorem transmitDeliversNineBytes : Obligations.TransmitDeliversNineBytes := by
  refine ⟨fun rsv zone arg => ?_, fun s w i hdec => ?_, fun s w e hdec => ?_, fun c w a henc => ?_,
    fun s cls act rsv zone arg a henc => ?_⟩
  · simp [decodeEnc, classOfTag, actionOfTag, encRowOf]
  · obtain ⟨k, row, -, henc, hexec⟩ := exec_of_decodeEnc_encTail (s := s) hdec
    rw [hexec, ← henc]
    rfl
  · have htag := classOfTag_eq_none_iff (crwCls w)
    rcases decodeEnc_cases s.cfg w with ⟨hcls, hdec', henc⟩ | ⟨k, hcls, hdec', henc⟩ | ⟨k, i, row, -, hdec', -⟩
    · cases hdec.symm.trans hdec'
      have hnone := htag.mp hcls
      exact ⟨congrArg (fun r => setRet (retOfArgs r) s) henc.symm, fun _ => rfl, fun hlt => absurd hnone (Nat.not_le.mpr hlt)⟩
    · cases hdec.symm.trans hdec'
      have hsome : ¬ 5 ≤ (crwCls w).toNat := fun h5 => by cases hcls.symm.trans (htag.mpr h5)
      exact ⟨congrArg (fun r => setRet (retOfArgs r) s) henc.symm, fun h5 => absurd h5 hsome, fun _ => rfl⟩
    · cases hdec.symm.trans hdec'
  · change encodeWord c w = .ok a at henc
    rcases decodeEnc_cases c w with ⟨-, -, henc'⟩ | ⟨k, -, -, henc'⟩ | ⟨k, i, row, -, hdec, -⟩
    · cases henc.symm.trans henc'
    · cases henc.symm.trans henc'
    · exact ⟨i, hdec⟩
  · obtain ⟨k, v, hcls, hdev, hsub, -, hpayload⟩ := accepted_args henc
    exact ⟨k, v, _, hcls, hdev, hsub, hpayload, rfl, rfl, wellFormedFrame_frameOf a.dev a.sub a.cmd (length_commandPayload_le v),
      exec_txCmd_of_accepted henc hpayload rsv⟩

/-- The pairs of R210's table. -/
theorem rowOf_isSome_iff (c : Cfg) (k : DeviceClass) (act : Action) (arg : BitVec 16) : (rowOf c k act arg).isSome = true ↔
    ((k, act) ∈ [(DeviceClass.light, Action.on), (.light, .off), (.thermostat, .hvac), (.thermostat, .temp), (.thermostat, .away),
      (.ventilation, .on), (.ventilation, .off), (.ventilation, .speed), (.elevator, .call)] ∨ k = .gasValve) := by
  cases k with
  | gasValve => simp [rowOf]
  | light | thermostat | ventilation | elevator => cases act <;> simp [rowOf]

/-- Settles O48: the refusals of ENC test by test, from the class to the row's own. -/
theorem transmitRefusesInTheOrderOfTheRule : Obligations.TransmitRefusesInTheOrderOfTheRule := by
  refine ⟨fun s cls act rsv zone arg r henc => exec_txCmd_of_refused henc rsv, fun c cls act zone arg => ⟨fun htag => ?_,
    fun k hcls => ⟨fun hrow => encodeCommand_of_no_row hcls hrow zone, fun row hrow => ?_⟩⟩, rowOf_isSome_iff, rfl⟩
  · exact encodeCommand_of_no_class ((classOfTag_eq_none_iff cls).mpr htag) c act zone arg
  · rw [encodeCommand_of_row hcls hrow]
    refine ⟨fun hzone => hzone ▸ encTail_zone_zero c k row, fun hzone hover => encTail_of_overflow hzone row hover,
      fun hzone hfits => ?_⟩
    rw [encTail_of_fits hzone row hfits]
    refine ⟨fun r hr => ?_, fun p hp => ?_⟩
    · rcases row_cases hrow with ⟨cmd, -, v, hok⟩ | hbad
      · cases hr.symm.trans hok
      · cases hr.symm.trans hbad
        rw [hr]
        exact ⟨rfl, rfl⟩
    · rw [hp]
      exact ⟨_, rfl⟩

/-! ## The gas valve (R221) -/

/-- Settles O49: every action has the one row, which reads no argument. -/
theorem gasValveIsOnlyEverClosed : Obligations.GasValveIsOnlyEverClosed := by
  intro s act rsv zone arg f
  have henc : encodeCommand s.cfg 3 act zone arg = encTail s.cfg .gasValve zone (gasCloseRow s.cfg) :=
    encodeCommand_of_row rfl rfl zone
  by_cases hzone : zone = 0
  · rw [hzone, encTail_zone_zero] at henc
    rw [if_pos hzone, hzone]
    exact exec_txCmd_of_refused henc rsv
  rw [if_neg hzone]
  by_cases hover : 255 < s.cfg.subBase.gasValve.toNat + zone.toNat
  · rw [encTail_of_overflow (k := .gasValve) hzone _ hover] at henc
    rw [if_pos hover]
    exact exec_txCmd_of_refused henc rsv
  · rw [encTail_of_fits (k := .gasValve) hzone _ (Nat.not_lt.mp hover)] at henc
    rw [if_neg hover]
    exact exec_txCmd_of_accepted henc rfl rsv

/-! ## Transmitted frames fed back (R224) -/

/-- A frame fed to an empty buffer is delivered, and leaves it empty. -/
theorem feedChunk_frame {s : State} {f : Bytes} (hs : Feeds s) (hempty : s.buf = []) (hf : wellFormedFrame f = true) :
    ∃ t, feedChunk f s = .next t ∧ DeliveredFrom .q [f] s t ∧ t.buf = [] ∧ Feeds t := by
  refine feedChunk_delivers hs ?_
  rw [hempty]
  exact extract_noise_frame (n := []) (fun _ hmem => absurd hmem List.not_mem_nil) hf

/-- Settles O50: a frame of a command is no status frame, so what FEED delivers has no DeviceStates. -/
theorem transmittedFramesLoopBackAndDecodeToNothing : Obligations.TransmittedFramesLoopBackAndDecodeToNothing := by
  intro s u cls act rsv zone arg hcfg hidle hfree hempty hready hexec hpulse
  cases henc : encodeCommand s.cfg cls act zone arg with
  | error r =>
    rw [exec_txCmd_of_refused henc] at hexec
    cases hexec
    cases hpulse
  | ok a =>
    obtain ⟨k, v, -, -, -, hcmd, hpayload⟩ := accepted_args henc
    rw [exec_txCmd_of_accepted henc hpayload] at hexec
    cases hexec
    have hlen := length_commandPayload_le v
    have hf := wellFormedFrame_frameOf a.dev a.sub a.cmd hlen
    have hnothing := statesOf_frameOf (ne_cmdStatus_of_mem_commandIds hcfg hcmd) a.dev a.sub hlen
    obtain ⟨t, hfeed, hdel, hbuf, ht⟩ := feedChunk_frame ⟨hcfg, hidle, hfree, hempty ▸ rfl, hready⟩ hempty hf
    refine ⟨_, transmitted_beats _ s, rfl, hf, rfl, rfl, rfl, t, hfeed, ht.idle, hbuf, hdel.emitted_eq, ?_⟩
    rw [hdel.pushed_eq, List.flatMap_singleton, hnothing, List.append_nil]

end Sys2Proof.Machine
end

section
/-! PROOFS. BLD.BUILD (spec/44_builder.md R241 to R244): the frame it assembles, the payload it refuses, and that the frames it builds
are those the loop emits. -/

namespace Sys2Proof.Machine

/-! ## What is built (R241, R242) -/

theorem buildFrame_of_fits (dev sub cmd : Byte) {payload : Bytes} (h : payload.length ≤ 255) :
    buildFrame dev sub cmd payload = .ok (frameOf dev sub cmd payload) := if_neg (Nat.not_lt.mpr h)

theorem buildFrame_of_long (dev sub cmd : Byte) {payload : Bytes} (h : 255 < payload.length) :
    buildFrame dev sub cmd payload = .error .badLength := if_pos h

theorem exec_bldBuild (dev sub cmd : Byte) (payload : Bytes) (s : State) :
    exec (.bldBuild dev sub cmd payload) s = .next (setRet (retOfBytes (buildFrame dev sub cmd payload)) s) := rfl

/-- Settles O45: the two checksums are those that `gen` appends to the header and the payload. -/
theorem buildAssemblesTheFrame : Obligations.BuildAssemblesTheFrame := by
  intro dev sub cmd payload s
  refine ⟨fun hfits => ⟨_, _, rfl, rfl, ?_⟩, fun hlong => ?_⟩
  · rw [exec_bldBuild, buildFrame_of_fits dev sub cmd hfits, frameOf, gen, List.append_assoc]
    rfl
  · rw [exec_bldBuild, buildFrame_of_long dev sub cmd hlong]
    rfl

/-! ## Building loses nothing (R243) -/

theorem length_frameOf (dev sub cmd : Byte) (payload : Bytes) : (frameOf dev sub cmd payload).length = payload.length + 7 := by
  simp [frameOf, gen]

/-- The payload stands behind the five bytes of the header. -/
theorem payload_frameOf (dev sub cmd : Byte) (payload : Bytes) :
    ((frameOf dev sub cmd payload).drop 5).take payload.length = payload := List.take_left

/-! ## An emitted frame is built from its own fields (R244) -/

theorem take_eq_header_append {f : Bytes} (h : 5 ≤ f.length) (n : Nat) : f.take (n + 5) =
    f.getD 0 0 :: f.getD 1 0 :: f.getD 2 0 :: f.getD 3 0 :: f.getD 4 0 :: (f.drop 5).take n :=
  congrArg (List.take (n + 5)) (eq_header_append h)

section
variable {f : Bytes} {d : Byte}

/-- The data region ends where the two checksums begin. -/
theorem IsCandidate.dataRegion_eq (h : IsCandidate f d) : dataRegion f = (f.drop 5).take (f.length - 7) := by
  rw [dataRegion, (getElem?_four_eq_some h.header).2, h.complete, totalLength, Nat.add_sub_cancel]

theorem IsCandidate.length_dataRegion (h : IsCandidate f d) : (dataRegion f).length = d.toNat := by
  rw [h.dataRegion_eq, List.length_take, List.length_drop, h.complete, totalLength]
  omega

/-- A candidate without its checksums: the header that BLD.BUILD writes, and the data region. -/
theorem IsCandidate.take_body (h : IsCandidate f d) : f.take (f.length - 2) =
    [SYNC, f.getD 1 0, f.getD 2 0, f.getD 3 0, BitVec.ofNat 8 (dataRegion f).length] ++ dataRegion f := by
  have h7 := h.seven_le_length
  have hsync : f.getD 0 0 = SYNC := by rw [List.getD_eq_getElem?_getD, h.sync]; rfl
  have hd : f.getD 4 0 = BitVec.ofNat 8 (dataRegion f).length := by
    rw [(getElem?_four_eq_some h.header).2, h.length_dataRegion, BitVec.ofNat_toNat, BitVec.setWidth_eq]
  calc f.take (f.length - 2)
      = f.take (f.length - 7 + 5) := by rw [show f.length - 7 + 5 = f.length - 2 by omega]
    _ = f.getD 0 0 :: f.getD 1 0 :: f.getD 2 0 :: f.getD 3 0 :: f.getD 4 0 :: dataRegion f := by
      rw [take_eq_header_append (by omega), h.dataRegion_eq]
    _ = _ := by rw [hsync, hd]; rfl

/-- The body is what BLD.BUILD completes, and only one trailer validates (R125). -/
theorem frameOf_of_wellFormed (h : wellFormedFrame f = true) :
    frameOf (f.getD 1 0) (f.getD 2 0) (f.getD 3 0) (dataRegion f) = f := by
  obtain ⟨⟨d, hcand⟩, hv⟩ := (wellFormedFrame_iff f).mp h
  obtain ⟨-, valid_iff_gen, -⟩ := generationValidatesAndIsUnique
  rw [frameOf, ← hcand.take_body]
  exact ((valid_iff_gen f (two_le_length_of_valid hv)).mp hv).symm

theorem buildFrame_of_wellFormed (h : wellFormedFrame f = true) :
    buildFrame (f.getD 1 0) (f.getD 2 0) (f.getD 3 0) ((f.drop 5).take (f.length - 7)) = .ok f := by
  obtain ⟨⟨d, hcand⟩, -⟩ := (wellFormedFrame_iff f).mp h
  rw [← hcand.dataRegion_eq, buildFrame_of_fits _ _ _ (length_dataRegion_le f), frameOf_of_wellFormed h]

end

/-- Settles O46: a built frame is well-formed, so the loop emits it; an emitted frame is well-formed, so it is built. -/
theorem builtFramesAndEmittedFramesAreTheSame : Obligations.BuiltFramesAndEmittedFramesAreTheSame := by
  refine ⟨fun dev sub cmd payload hfits => ?_, fun s f hmem => ?_⟩
  · have hwf := wellFormedFrame_frameOf dev sub cmd hfits
    exact ⟨_, buildFrame_of_fits dev sub cmd hfits, length_frameOf .., hwf, rfl, rfl, rfl, payload_frameOf ..,
      extract_noise_frame (n := []) (fun _ hmem => absurd hmem List.not_mem_nil) hwf⟩
  · exact buildFrame_of_wellFormed ((extracts_extract s).wellFormed_frames f hmem)

end Sys2Proof.Machine
end

section
/-! PROOFS. The invariant along a step (spec/60_exceptions.md R260, R269; spec/10_state.md R21; spec/41_reassembler.md R155, R159, R162):
the conditions of each phase, what keeps them at the ports, in the engine and in each agent, and that none of these stops. -/

namespace Sys2Proof.Machine

/-! ## The conditions of each phase (R155) -/

section PhaseConditions
variable {s : State}

theorem phaseOk_q_iff (hph : s.ph = .q) : phaseOk s ↔ quiescent s.buf = true ∧ rxOutputsTaken s := by
  simp only [phaseOk, hph]

theorem phaseOk_of_s1 (hph : s.ph = .s1) : phaseOk s := by
  simp only [phaseOk, hph]

theorem phaseOk_s2_iff (hph : s.ph = .s2) :
    phaseOk s ↔ (∃ k, s.i = some k ∧ find SYNC s.buf = some k) ∧ rxOutputsTaken s := by
  simp only [phaseOk, hph]

theorem phaseOk_s3_iff (hph : s.ph = .s3) : phaseOk s ↔ startsWithSync s.buf ∧ rxOutputsTaken s := by
  simp only [phaseOk, hph]

theorem phaseOk_s4_iff (hph : s.ph = .s4) : phaseOk s ↔ startsWithSync s.buf ∧ 5 ≤ s.buf.length ∧ rxOutputsTaken s := by
  simp only [phaseOk, hph]

theorem phaseOk_s5_iff (hph : s.ph = .s5) :
    phaseOk s ↔ startsWithSync s.buf ∧ s.buf[4]? = some s.d ∧ s.L = totalLength s.d ∧ rxOutputsTaken s := by
  simp only [phaseOk, hph]

theorem phaseOk_s6_iff (hph : s.ph = .s6) :
    phaseOk s ↔ startsWithSync s.buf ∧ s.buf[4]? = some s.d ∧ s.L = totalLength s.d ∧ s.L ≤ s.buf.length ∧ rxOutputsTaken s := by
  simp only [phaseOk, hph]

/-- Only at S1, between an emission and the next search, can an output of the receive side wait (R29, R153). -/
theorem rxOutputsTaken_of_phaseOk (h : phaseOk s) (hph : s.ph ≠ .s1) : rxOutputsTaken s := by
  cases hp : s.ph with
  | s1 => exact absurd hp hph
  | q => obtain ⟨-, ho⟩ := (phaseOk_q_iff hp).mp h; exact ho
  | s2 => obtain ⟨-, ho⟩ := (phaseOk_s2_iff hp).mp h; exact ho
  | s3 => obtain ⟨-, ho⟩ := (phaseOk_s3_iff hp).mp h; exact ho
  | s4 => obtain ⟨-, -, ho⟩ := (phaseOk_s4_iff hp).mp h; exact ho
  | s5 => obtain ⟨-, -, -, ho⟩ := (phaseOk_s5_iff hp).mp h; exact ho
  | s6 => obtain ⟨-, -, -, -, ho⟩ := (phaseOk_s6_iff hp).mp h; exact ho

end PhaseConditions

/-! ## The cycle at the ports (R100, R293) -/

/-- The outside agents present no configuration that they did not hold ready before. -/
theorem strapsOk_nextHost {h : HostSide} (hs : strapsOk h) : strapsOk (nextHost h) :=
  fun l hl => hs l (nextHost_wave_subset h l hl)

/-- What a consumer takes leaves no more waiting than there was. -/
theorem length_ite_drop_le {α : Type} (ready : Bool) (out : List α) : (if ready then out.drop 1 else out).length ≤ out.length := by
  cases ready <;> simp

theorem cycle_frmOut_length_le (s : State) : (cycle s).frmOut.length ≤ s.frmOut.length := by
  rw [cycle_eq_update]
  exact length_ite_drop_le ..

theorem cycle_stOut_length_le (s : State) : (cycle s).stOut.length ≤ s.stOut.length := by
  rw [cycle_eq_update]
  exact length_ite_drop_le ..

theorem cycle_txOut_length_le (s : State) : (cycle s).txOut.length ≤ s.txOut.length := by
  rw [cycle_eq_update]
  exact length_ite_drop_le ..

theorem rxOutputsTaken_cycle {s : State} (ho : rxOutputsTaken s) : rxOutputsTaken (cycle s) := by
  obtain ⟨hfrm, hst, hslot⟩ := ho
  have hfrmLe := cycle_frmOut_length_le s
  have hstLe := cycle_stOut_length_le s
  rw [hfrm] at hfrmLe
  rw [hst] at hstLe
  exact ⟨List.eq_nil_of_length_eq_zero (Nat.le_zero.mp hfrmLe), List.eq_nil_of_length_eq_zero (Nat.le_zero.mp hstLe),
    (cycle_decSlot s).trans hslot⟩

theorem phaseOk_cycle {s : State} (h : phaseOk s) : phaseOk (cycle s) := by
  by_cases hph : s.ph = .s1
  · exact phaseOk_of_s1 ((cycle_ph s).trans hph)
  · have ho := rxOutputsTaken_of_phaseOk h hph
    have ho' := rxOutputsTaken_cycle ho
    simpa only [phaseOk, cycle_ph, cycle_buf, cycle_i, cycle_d, cycle_L, ho, ho'] using h

theorem inv_cycle {s : State} (h : Inv s) : Inv (cycle s) where
  cfgWf := (cycle_cfg s).symm ▸ h.cfgWf
  bound := (cycle_buf s).symm ▸ h.bound
  phase := phaseOk_cycle h.phase
  slot := (cycle_decSlot s).symm ▸ h.slot
  frames := (cycle_emitted s).symm ▸ h.frames
  txOne := (cycle_txOut_length_le s).trans h.txOne
  straps := (cycle_host s).symm ▸ strapsOk_nextHost h.straps

/-! ## The micro-steps (R143 to R148, R155) -/

/-- `o` answers a next state of the invariant. -/
def AnswersInv (o : Outcome) : Prop := ∃ t, o = .next t ∧ Inv t

/-- One operation after another, when the second answers so from every state of the invariant. -/
theorem AnswersInv.andThen {o : Outcome} {f : State → Outcome} (ho : AnswersInv o) (hf : ∀ t, Inv t → AnswersInv (f t)) :
    AnswersInv (andThen o f) := by
  obtain ⟨t, rfl, ht⟩ := ho
  exact hf t ht

section MicroSteps
variable {s : State}

/-- FRS.S1: with no sync byte nothing is buffered, and that is quiescent. -/
theorem execFrsS1_answersInv (h : Inv s) (ho : rxOutputsTaken s) : AnswersInv (execFrsS1 s) := by
  rcases execFrsS1_cases s with ⟨-, e⟩ | ⟨k, hk, e⟩
  · exact ⟨_, e, { h with bound := Nat.zero_le _, phase := (phaseOk_q_iff rfl).mpr ⟨rfl, ho⟩ }⟩
  · exact ⟨_, e, { h with phase := (phaseOk_s2_iff rfl).mpr ⟨⟨k, rfl, hk⟩, ho⟩ }⟩

theorem length_drop_le_of_le {buf : Bytes} {m : Nat} (h : buf.length ≤ m) (n : Nat) : (buf.drop n).length ≤ m :=
  (List.drop_sublist n buf).length_le.trans h

/-- FRS.S2: the sync byte found comes to the front. -/
theorem execFrsS2_answersInv (h : Inv s) (hph : s.ph = .s2) : AnswersInv (execFrsS2 s) := by
  obtain ⟨⟨k, hi, hk⟩, ho⟩ := (phaseOk_s2_iff hph).mp h.phase
  exact ⟨_, execFrsS2_of_le hi (find_lt_length hk).le,
    { h with bound := length_drop_le_of_le h.bound k, phase := (phaseOk_s3_iff rfl).mpr ⟨find_drop_head hk, ho⟩ }⟩

/-- FRS.S3: a sync byte without a complete header is quiescent. -/
theorem execFrsS3_answersInv (h : Inv s) (hph : s.ph = .s3) : AnswersInv (execFrsS3 s) := by
  obtain ⟨hsync, ho⟩ := (phaseOk_s3_iff hph).mp h.phase
  rcases Nat.lt_or_ge s.buf.length 5 with hshort | hlong
  · have hq : quiescent s.buf = true := (quiescent_iff_three_cases _).mpr (.inr (.inl ⟨hsync, hshort⟩))
    exact ⟨_, execFrsS3_of_short_header hshort, { h with phase := (phaseOk_q_iff rfl).mpr ⟨hq, ho⟩ }⟩
  · exact ⟨_, execFrsS3_of_header hlong, { h with phase := (phaseOk_s4_iff rfl).mpr ⟨hsync, hlong, ho⟩ }⟩

theorem execFrsS4_answersInv (h : Inv s) (hph : s.ph = .s4) : AnswersInv (execFrsS4 s) := by
  obtain ⟨hsync, hlong, ho⟩ := (phaseOk_s4_iff hph).mp h.phase
  have hd : s.buf[4]? = some s.buf[4] := List.getElem?_eq_getElem hlong
  exact ⟨_, execFrsS4_of_length_byte hd, { h with phase := (phaseOk_s5_iff rfl).mpr ⟨hsync, hd, rfl, ho⟩ }⟩

/-- FRS.S5: a candidate that is not complete is quiescent. -/
theorem execFrsS5_answersInv (h : Inv s) (hph : s.ph = .s5) : AnswersInv (execFrsS5 s) := by
  obtain ⟨hsync, hd, hL, ho⟩ := (phaseOk_s5_iff hph).mp h.phase
  rcases Nat.lt_or_ge s.buf.length s.L with hshort | hlong
  · have hq : quiescent s.buf = true := by
      refine (quiescent_iff _).mpr (.inr ⟨hsync, fun d hd' => ?_⟩)
      cases hd.symm.trans hd'
      exact hL ▸ hshort
    exact ⟨_, execFrsS5_of_incomplete hshort, { h with phase := (phaseOk_q_iff rfl).mpr ⟨hq, ho⟩ }⟩
  · exact ⟨_, execFrsS5_of_complete hlong, { h with phase := (phaseOk_s6_iff rfl).mpr ⟨hsync, hd, hL, hlong, ho⟩ }⟩

/-- The candidate of FRS.S6 has the shape of a frame, so a valid one is well-formed (R162). -/
theorem wellFormedFrame_candidate {buf : Bytes} {d : Byte} (hsync : startsWithSync buf) (hd : buf[4]? = some d)
    (hlen : totalLength d ≤ buf.length) (hv : valid (buf.take (totalLength d)) = true) :
    wellFormedFrame (buf.take (totalLength d)) = true := by
  have h7 := seven_le_totalLength d
  refine (wellFormedFrame_iff _).mpr ⟨⟨d, ?_, ?_, List.length_take_of_le hlen⟩, hv⟩
  · rw [List.getElem?_take_of_lt (by omega), hsync]
  · rw [List.getElem?_take_of_lt (by omega), hd]

theorem inv_emitFrame {f : Bytes} (h : Inv s) (hph : s.ph = .s1) (hf : wellFormedFrame f = true) : Inv (emitFrame f s) := by
  rw [emitFrame_eq_update]
  exact { h with
    phase := phaseOk_of_s1 hph
    slot := fun _ hg => Option.some.inj hg ▸ hf
    frames := List.forall_mem_append.mpr ⟨h.frames, List.forall_mem_singleton.mpr hf⟩ }

/-- FRS.S6: on to S1, where nothing is asked of the buffer; what is emitted is well-formed. -/
theorem execFrsS6_answersInv (h : Inv s) (hph : s.ph = .s6) : AnswersInv (execFrsS6 s) := by
  obtain ⟨hsync, hd, hL, hlen, -⟩ := (phaseOk_s6_iff hph).mp h.phase
  have h7 : 7 ≤ s.L := hL ▸ seven_le_totalLength s.d
  cases hv : valid (s.buf.take s.L) with
  | true =>
    have hf : wellFormedFrame (s.buf.take s.L) = true := by
      rw [hL] at hlen hv ⊢
      exact wellFormedFrame_candidate hsync hd hlen hv
    have hemit : Inv (emitFrame (s.buf.take s.L) (goto .s1 s)) :=
      inv_emitFrame { h with phase := phaseOk_of_s1 rfl } rfl hf
    refine ⟨_, execFrsS6_of_valid h7 hlen rfl hv, ?_⟩
    rw [emitFrame_eq_update] at hemit ⊢
    exact { hemit with bound := length_drop_le_of_le h.bound s.L, phase := phaseOk_of_s1 rfl }
  | false =>
    exact ⟨_, execFrsS6_of_invalid h7 hlen rfl hv,
      { h with bound := length_drop_le_of_le h.bound 1, phase := phaseOk_of_s1 rfl }⟩

/-- Away from phase Q, with nothing pending, the micro-step of the phase. -/
theorem microStep_answersInv (h : Inv s) (ho : rxOutputsTaken s) (hne : s.ph ≠ .q) :
    ∃ o, microStep s = some o ∧ AnswersInv o := by
  cases hph : s.ph with
  | q => exact absurd hph hne
  | s1 => exact ⟨_, microStep_of_s1 hph, execFrsS1_answersInv h ho⟩
  | s2 => exact ⟨_, microStep_of_s2 hph, execFrsS2_answersInv h hph⟩
  | s3 => exact ⟨_, microStep_of_s3 hph, execFrsS3_answersInv h hph⟩
  | s4 => exact ⟨_, microStep_of_s4 hph, execFrsS4_answersInv h hph⟩
  | s5 => exact ⟨_, microStep_of_s5 hph, execFrsS5_answersInv h hph⟩
  | s6 => exact ⟨_, microStep_of_s6 hph, execFrsS6_answersInv h hph⟩

end MicroSteps

/-! ## The engine (R141, R153) -/

/-- A push of DeviceStates at S1, where words may wait on the state port. -/
theorem inv_pushStates {s : State} (h : Inv s) (hph : s.ph = .s1) (sts : List DeviceState) : Inv (pushStates sts s) := by
  rw [pushStates, offerSt_eq_update]
  exact { h with phase := phaseOk_of_s1 hph }

/-- DEC on the frame handed over: only at S1 is there one. -/
theorem decodeEmitted_answersInv {s : State} {f : Bytes} (h : Inv s) (hslot : s.decSlot = some f) :
    AnswersInv (decodeEmitted f { s with decSlot := none }) := by
  have hph : s.ph = .s1 := by
    by_contra hne
    obtain ⟨-, -, hnone⟩ := rxOutputsTaken_of_phaseOk h.phase hne
    cases hslot.symm.trans hnone
  have htaken : Inv { s with decSlot := none } := { h with phase := phaseOk_of_s1 hph, slot := fun _ hf => nomatch hf }
  exact ⟨_, decodeEmitted_eq .., inv_pushStates htaken hph _⟩

/-- The engine waits or is quiescent, or its next action answers a state of the invariant. -/
theorem rxAdvance_answersInv {s : State} (h : Inv s) : rxAdvance s = none ∨ ∃ o, rxAdvance s = some o ∧ AnswersInv o := by
  rcases rxAdvance_cases s with ⟨-, e⟩ | ⟨-, f, hslot, e⟩ | ⟨-, -, -, e⟩ | ⟨hfrm, hslot, hst, e⟩
  · exact .inl e
  · exact .inr ⟨_, e, decodeEmitted_answersInv h hslot⟩
  · exact .inl e
  · by_cases hph : s.ph = .q
    · exact .inl (rxAdvance_of_idle ⟨hph, hfrm, hst, hslot⟩)
    · exact .inr (e ▸ microStep_answersInv h ⟨hfrm, hst, hslot⟩ hph)

theorem rxLoop_answersInv (n : Nat) {s : State} (h : Inv s) : AnswersInv (rxLoop n s) := by
  refine rxLoop_completes (P := Inv) (fun u hu => ?_) n s h
  rcases rxAdvance_answersInv hu with e | ⟨_, e, t, rfl, ht⟩
  · exact .inl e
  · exact .inr ⟨t, e, ht⟩

/-- At phase Q there is room for one byte, and the guard does not fire (R159). -/
theorem inv_feedStart {s : State} (h : Inv s) (hph : s.ph = .q) (b : Byte) : Inv (feedStart b s) := by
  have hlen := length_le_of_quiescent ((phaseOk_q_iff hph).mp h.phase).1
  have hbuf : (feedStart b s).buf = s.buf ++ [b] := guardBuf_append_byte b h.cfgWf hlen
  have hbound : (feedStart b s).buf.length ≤ 262 := by
    rw [hbuf, List.length_append, List.length_singleton]
    omega
  exact { h with bound := hbound, phase := phaseOk_of_s1 rfl }

theorem execFrsFeedB_answersInv {s : State} {b : Byte} (h : Inv s) (hph : s.ph = .q) : AnswersInv (execFrsFeedB b s) :=
  rxLoop_answersInv _ (inv_feedStart h hph b)

theorem execFrsFlush_answersInv {s : State} (h : Inv s) (hph : s.ph = .q) : AnswersInv (execFrsFlush s) := by
  obtain ⟨-, ho⟩ := (phaseOk_q_iff hph).mp h.phase
  exact ⟨_, rfl, { h with bound := Nat.zero_le _, phase := (phaseOk_q_iff rfl).mpr ⟨rfl, ho⟩ }⟩

/-! ## The agents (R96, R19) -/

/-- Taking an offer keeps the invariant: only the configurations to be presented matter of the outside agents. -/
theorem inv_withHost {s : State} (h : Inv s) {g : HostSide} (hg : strapsOk g) : Inv { s with host := g } :=
  { h with straps := hg }

/-- The phase code selects the micro-step of the phase (R97). -/
theorem microStep_eq_exec {s : State} (hph : s.ph ≠ .q) :
    ∃ i, decodePhase (phaseCode s.ph) = .ok i ∧ microStep s = some (exec i s) := by
  unfold microStep
  cases hp : s.ph with
  | q => exact absurd hp hph
  | s1 | s2 | s3 | s4 | s5 | s6 => exact ⟨_, rfl, rfl⟩

/-- RX away from phase Q: it waits, or goes on with DEC or the micro-step of the phase. -/
theorem rxSelect_running_answersInv {s : State} (h : Inv s) (hph : s.ph ≠ .q) : AnswersInv (runSelected rxSelect s) := by
  have hsel := rxSelect_of_running hph
  rcases rxGoOn_cases s with ⟨-, e⟩ | ⟨-, f, hslot, e⟩ | ⟨-, -, -, e⟩ | ⟨-, -, -, -, e⟩ | ⟨hfrm, hslot, hst, -, e⟩
  · exact ⟨s, runSelected_of_none (hsel.trans e), h⟩
  · rw [runSelected_of_frame (hsel.trans e)]
    exact decodeEmitted_answersInv h hslot
  · exact ⟨s, runSelected_of_none (hsel.trans e), h⟩
  · exact ⟨s, runSelected_of_none (hsel.trans e), h⟩
  · obtain ⟨i, hi, hexec⟩ := microStep_eq_exec hph
    obtain ⟨o, ho, hinv⟩ := microStep_answersInv h ⟨hfrm, hst, hslot⟩ hph
    rw [runSelected_of_ok (hsel.trans e) hi, Option.some.inj (hexec.symm.trans ho)]
    exact hinv

/-- RX at phase Q: a flush, a byte, or nothing. -/
theorem rxSelect_quiescent_answersInv {s : State} (h : Inv s) (hph : s.ph = .q) : AnswersInv (runSelected rxSelect s) := by
  have hsel := rxSelect_of_quiescent hph
  rcases rxAccept_cases s with ⟨-, e⟩ | ⟨b, -, -, e⟩ | ⟨-, -, e⟩
  · rw [runSelected_of_ok (hsel.trans e) rfl]
    exact execFrsFlush_answersInv (inv_withHost h h.straps) hph
  · rw [runSelected_of_ok (hsel.trans e) rfl, exec_frsFeedB]
    exact execFrsFeedB_answersInv (inv_withHost h h.straps) hph
  · exact ⟨s, runSelected_of_none (hsel.trans e), h⟩

theorem rxSelect_answersInv (s : State) (h : Inv s) : AnswersInv (runSelected rxSelect s) := by
  by_cases hph : s.ph = .q
  · exact rxSelect_quiescent_answersInv h hph
  · exact rxSelect_running_answersInv h hph

/-- TX.CMD while no frame is being delivered: at most the nine bytes of one command then wait (R224, R269). -/
theorem exec_decodeCmd_answersInv {s : State} {w : Word32} (h : Inv s) (hout : s.txOut = []) :
    AnswersInv (exec (decodeCmd w) s) := by
  rw [decodeCmd]
  cases henc : encodeCommand s.cfg (crwCls w) (actionOfTag (crwAct w)) (crwZone w) (crwArg w) with
  | error r => exact ⟨_, exec_txCmd_of_refused henc _, { h with }⟩
  | ok a =>
    obtain ⟨k, v, -, -, -, -, hpayload⟩ := accepted_args henc
    refine ⟨_, exec_txCmd_of_accepted henc hpayload _, { h with txOne := ?_ }⟩
    have hnine : (txBeats (frameOf a.dev a.sub a.cmd [0x01, v])).length = 9 := rfl
    simp only [transmitted, hout, List.nil_append]
    split
    · exact Nat.zero_le 9
    · exact hnine.le

theorem txSelect_answersInv (s : State) (h : Inv s) : AnswersInv (runSelected txSelect s) := by
  rcases txSelect_cases s with ⟨-, e⟩ | ⟨w, -, hout, e⟩
  · exact ⟨s, runSelected_of_none e, h⟩
  · rw [runSelected_of_ok e rfl]
    exact exec_decodeCmd_answersInv (inv_withHost h h.straps) hout

/-- A call changes nothing that the invariant speaks of: the guard finds nothing to discard, and the other functions return. -/
theorem exec_unit_answersInv {s : State} {u : UnitCall} {i : Instr} (h : Inv s) (hi : decodeUnit u = .ok i) :
    AnswersInv (exec i s) := by
  cases u with
  | guard =>
    cases hi
    have hguard : guardBuf s.cfg.bufBound s.buf = s.buf := guardBuf_of_le (h.bound.trans (bufBound_of_wf h.cfgWf))
    rw [exec_frsGuard, hguard]
    exact ⟨s, rfl, h⟩
  | chkXor bs | chkAdd bs | chkValidate f | chkGen bs | build dev sub cmd payload =>
    cases hi
    exact ⟨_, rfl, { h with }⟩
  | enc w =>
    obtain ⟨r, hr⟩ := exec_of_decodeEnc hi s
    exact ⟨_, hr, { h with }⟩

/-- A call that names no row is one of ENC, and is refused (R212, log 15). -/
theorem noOperation_of_decodeUnit {u : UnitCall} {e : DecodeError} (h : decodeUnit u = .error e) (s : State) :
    ∃ r, noOperation e s = refuse r s := by
  cases u with
  | enc w =>
    rcases noOperation_of_decodeEnc h s with ⟨-, hr⟩ | ⟨-, hr⟩
    · exact ⟨_, hr⟩
    · exact ⟨_, hr⟩
  | guard | chkXor bs | chkAdd bs | chkValidate f | chkGen bs | build dev sub cmd payload => cases h

theorem callSelect_answersInv {s : State} (h : Inv s) : AnswersInv (runSelected callSelect s) := by
  rcases callSelect_cases s with ⟨-, e⟩ | ⟨u, -, e⟩
  · exact ⟨s, runSelected_of_none e, h⟩
  · cases hdec : decodeUnit u with
    | ok i =>
      rw [runSelected_of_ok e hdec]
      exact exec_unit_answersInv (inv_withHost h h.straps) hdec
    | error err =>
      rw [runSelected_of_error e hdec]
      obtain ⟨r, hr⟩ := noOperation_of_decodeUnit hdec { s with host := { s.host with call := none } }
      exact ⟨_, congrArg _ hr, { h with }⟩

/-! ## The step (R260) -/

theorem runAgents_answersInv {c : State} (h : Inv c) : AnswersInv (runAgents c) :=
  ((callSelect_answersInv h).andThen txSelect_answersInv).andThen rxSelect_answersInv

/-- A reset clears what the invariant bounds, under a legal configuration that stands or is presented (R151, R293). -/
theorem exec_bfeReset_answersInv {s : State} (h : Inv s) {c : Cfg} (hc : c.wf = true) :
    AnswersInv (exec .bfeReset { resetTakes s with cfg := c }) := by
  rw [exec_bfeReset, resetTakes_eq]
  exact ⟨_, rfl, {
    cfgWf := hc
    bound := Nat.zero_le _
    phase := (phaseOk_q_iff rfl).mpr ⟨rfl, rfl, rfl, rfl⟩
    slot := fun _ hf => nomatch hf
    frames := h.frames
    txOne := Nat.zero_le _
    straps := h.straps }⟩

/-- The configuration that the pins present, or the standing one. -/
theorem wf_strap_getD {s : State} (h : Inv s) : (s.host.levels.strap.getD s.cfg).wf = true := by
  cases hstrap : s.host.levels.strap with
  | none => exact h.cfgWf
  | some c => exact h.straps _ List.mem_cons_self c hstrap

/-- Settles O57: the cycle keeps the invariant, and from there a reset, or each agent in turn, answers a state of it. -/
theorem everyStepKeepsTheInvariant : Obligations.EveryStepKeepsTheInvariant := by
  intro s h
  have hc := inv_cycle h
  cases hrst : (cycle s).host.levels.rst with
  | true =>
    rw [step_of_reset hrst, ← cycle_cfg s]
    exact exec_bfeReset_answersInv hc (wf_strap_getD hc)
  | false =>
    rw [step_of_agents hrst hc.cfgWf]
    exact runAgents_answersInv hc

end Sys2Proof.Machine
end

section
/-! PROOFS. The hold-back behind a false sync and the reset state (spec/70_reset_and_hazards.md R290, R293, R302). -/

namespace Sys2Proof.Machine

/-! ## Hold-back behind a false sync (R302) -/

/-- A sync byte whose length byte is 0xFF waits for 262 bytes, whatever follows (R147). -/
theorem quiescent_of_longest_candidate {s : Bytes} (hsync : s[0]? = some SYNC) (hd : s[4]? = some 0xFF) (hlen : s.length ≤ 261) :
    quiescent s = true := by
  refine (quiescent_iff s).mpr (.inr ⟨hsync, fun d hd' => ?_⟩)
  obtain rfl : 0xFF = d := Option.some.inj (hd.symm.trans hd')
  have htotal : totalLength 0xFF = 262 := rfl
  omega

/-- Settles O28: with at most 261 bytes there the false sync's candidate is incomplete, so the whole is quiescent. -/
theorem falseSyncHoldsFramesBack : Obligations.FalseSyncHoldsFramesBack := by
  intro rest hrest
  refine extract_of_quiescent (quiescent_of_longest_candidate rfl rfl ?_)
  rw [List.length_append]
  exact Nat.add_le_add_left hrest 5

/-! ## The reset state (R290, R31) -/

/-- The quiet host presents no configuration (R293). -/
theorem strapsOk_hostQuiet : strapsOk hostQuiet := by
  intro l hl c hc
  obtain rfl : l = levelsReset := List.mem_singleton.mp hl
  cases hc

/-- Settles O58: the buffer, the ports and the records are empty, and the phase is Q. -/
theorem resetStateIsOfTheInvariant : Obligations.ResetStateIsOfTheInvariant := by
  intro c hc
  exact {
    cfgWf := hc
    bound := Nat.zero_le _
    phase := (phaseOk_q_iff rfl).mpr ⟨rfl, rfl, rfl, rfl⟩
    slot := fun _ hf => nomatch hf
    frames := fun _ hf => nomatch hf
    txOne := Nat.zero_le _
    straps := strapsOk_hostQuiet }

end Sys2Proof.Machine
end
